-- ==== Sys2Proof/Word.lean ====
section
/-! DEFINITION. The widths of the block's registers and ports, the names of its FSM states and outcomes, and one
step's input sample (spec/00_scope.md R12, spec/10_state.md R21, R23). A 1-bit port or register is a `Bool`:
`true` is 1, and on the data line `true` is high (R17; log entry 13). -/

namespace Sys2Proof

/-- A value of the microsecond timer (`us_now`, T0): W_T = 32 bits (00_scope.md R8). -/
abbrev Time := BitVec 32

/-- A 16-bit output word: status, hum, temp, temp_x10 (10_state.md R22). -/
abbrev Half := BitVec 16

/-- The 40-bit raw frame (10_state.md R27). -/
abbrev Frame := BitVec 40

/-- The FSM states that STATE holds (10_state.md R25). -/
inductive FsmState where
  | idle | startLow | startHigh | hsLow | hsHigh | bitHigh | bitLow | validate
  deriving DecidableEq, Repr

/-- The outcomes that OUTCOME holds (30_encoding.md R86). The reserved codes 0b110 and 0b111 have no name here:
no rule writes them and a state that held one is outside the model (R87, 93 I8; log entry 4). -/
inductive OutcomeCode where
  | none | success | checksumMismatch | timeoutHsLow | timeoutHsHigh | timeoutBit
  deriving DecidableEq, Repr

/-- The phase that a `Timeout(phase)` names (00_scope.md R16). -/
inductive Phase where
  | handshakeLow | handshakeHigh | bitRead
  deriving DecidableEq, Repr

/-- What one step reads of the environment (00_scope.md R12): `rst`, `cmd`, `t` (the `us_now` port) and `l` (the
`line_in` port). -/
structure Sample where
  rst    : Bool
  cmd    : BitVec 2
  usNow  : Time
  lineIn : Bool
  deriving DecidableEq, Repr, Inhabited

end Sys2Proof
end

