-- ==== Sys2Proof/Config.lean ====
section
/-! DEFINITION. What is fixed for the block and never changes as it runs: the protocol constants, each defined once
under the spec's own name (spec/00_scope.md R6, R7), the parameters of the variant machine (93 I10, I13), and the two
free values. Durations are in microseconds. -/

namespace Sys2Proof.Config

/-- Minimum host low hold of the start signal (R6). -/
def T_START_LOW_MIN : Nat := 18000
/-- Timeout of each handshake wait (R6). -/
def T_HS_TIMEOUT : Nat := 100
/-- Timeout of each of the two waits of read_bit (R6). -/
def T_BIT_TIMEOUT : Nat := 100
/-- A high pulse longer than this is a 1 (R6). -/
def T_BIT_THRESHOLD : Nat := 45
/-- Bits per frame (R6). -/
def N_BITS : Nat := 40
/-- Bytes per frame (R6). -/
def N_BYTES : Nat := 5
/-- Minimum idle time between acquisitions: 5 s, a host duty that the block does not enforce (R6, R235). -/
def T_IDLE_MIN : Nat := 5000000
/-- The low hold of the start signal: the spec's value in the source's range (R7, D4). -/
def T_START_LOW : Nat := 20000
/-- The high hold of the start signal: the spec's value in the source's range (R7, D5). -/
def T_START_HIGH : Nat := 30
/-- The source's range for the high hold, "hold 20–40µs" (R7). -/
def T_START_HIGH_MIN : Nat := 20
def T_START_HIGH_MAX : Nat := 40

/-- The implementation parameters that a model may vary (R7, 93 I10; D8, 93 I13). They are read by the variant machine
(Machine/Variant.lean) only; the machine itself has the spec's fixed values. -/
structure Params where
  tStartLow     : Nat
  tStartHigh    : Nat
  firstBitAlign : Bool
  deriving DecidableEq, Repr

/-- The values the spec fixes (R7, D4, D5, D8). -/
def specParams : Params := ⟨T_START_LOW, T_START_HIGH, false⟩

/-- FREE VALUE. The sample that step number n reads where the environment has placed none: the schedule, the line's
level, `cmd` and `rst` are "any value" (93 I2, I3, I4; log entry 1). -/
opaque drawSample : Nat → Sample

/-- FREE VALUE. FRAME after a BIT_LOW completion with BITCOUNT >= 40, where the position 39 - BITCOUNT of R122 names no
bit of FRAME; arguments: BITCOUNT, FRAME and the bit read. No run reaches such a state (10_state.md R45 item 6; log
entry 5). -/
opaque freeFrame : BitVec 6 → Frame → Bool → Frame

end Sys2Proof.Config
end

