-- ==== Sys2Proof/Syntax.lean ====
section
/-! DEFINITION. The block's operations as syntax: one constructor for each of the 13 rows of spec/opcode_table.json
(RST, the four CMD codes, the eight STATE codes). None has an operand (spec/30_encoding.md R88). -/

namespace Sys2Proof

/-- One constructor per row of spec/opcode_table.json, in the table's order. -/
inductive Instr where
  /-- RST (70_reset_and_hazards.md R230). -/
  | rst
  /-- NOP (42_frame_reader.md R141). -/
  | nop
  /-- ACQUIRE (42_frame_reader.md R142). -/
  | acquire
  /-- RESERVED_CMD_2, `cmd = 0b10` (30_encoding.md R84). -/
  | reservedCmd2
  /-- RESERVED_CMD_3, `cmd = 0b11` (30_encoding.md R84). -/
  | reservedCmd3
  /-- IDLE (42_frame_reader.md R141, R142). -/
  | idle
  /-- START_LOW (42_frame_reader.md R144). -/
  | startLow
  /-- START_HIGH (42_frame_reader.md R145). -/
  | startHigh
  /-- HS_LOW (42_frame_reader.md R147). -/
  | hsLow
  /-- HS_HIGH (42_frame_reader.md R148). -/
  | hsHigh
  /-- BIT_HIGH (41_bit_decoder.md R121). -/
  | bitHigh
  /-- BIT_LOW (41_bit_decoder.md R122). -/
  | bitLow
  /-- VALIDATE (42_frame_reader.md R150). -/
  | validate
  deriving DecidableEq, Repr

end Sys2Proof
end

