-- ==== Sys2Proof/WellFormed.lean ====
section
/-! DEFINITION. What is well formed: an encoded word fits its format's width (spec/30_encoding.md R80, R91), an
implementation's parameters lie in the source's ranges (spec/00_scope.md R7), and every instruction, since none has an
operand (R88). -/

namespace Sys2Proof

/-- The three formats of spec/opcode_table.json's rows (30_encoding.md R80; the RST row is the `rst` port). -/
inductive Format where
  | rst | cmd | state
  deriving DecidableEq, Repr

/-- The format's width in bits (30_encoding.md R91: fixed widths only). -/
def Format.width : Format → Nat
  | .rst   => 1
  | .cmd   => 2
  | .state => 3

/-- One encoded operation: its format and its bits as a number, bit 0 the least significant. -/
structure TableWord where
  format : Format
  bits   : Nat
  deriving DecidableEq, Repr

/-- The bits fit the format. -/
def TableWord.wellFormed (w : TableWord) : Bool := decide (w.bits < 2 ^ w.format.width)

/-- No instruction has an operand, so each is well formed (30_encoding.md R88). -/
def Instr.wellFormed : Instr → Bool
  | .rst | .nop | .acquire | .reservedCmd2 | .reservedCmd3 | .idle | .startLow | .startHigh
  | .hsLow | .hsHigh | .bitHigh | .bitLow | .validate => true

/-- The ranges of 00_scope.md R7: T_START_LOW >= 18000 and 20 <= T_START_HIGH <= 40. -/
def Config.Params.wellFormed (p : Config.Params) : Bool :=
  decide (Config.T_START_LOW_MIN ≤ p.tStartLow) &&
  decide (Config.T_START_HIGH_MIN ≤ p.tStartHigh) && decide (p.tStartHigh ≤ Config.T_START_HIGH_MAX)

end Sys2Proof
end

