-- ==== Sys2Proof/Decode.lean ====
section
/-! DEFINITION. The encodings of spec/30_encoding.md: the codes of STATE (R85), OUTCOME (R86) and CMD (R81), the
decoder of one encoded word (total; what it does not take it rejects by name), the encoder, how a step's operation is
chosen (R89), and the host's `decodeTableWord`. -/

namespace Sys2Proof

/-- STATE's code (30_encoding.md R85). -/
def FsmState.code : FsmState → BitVec 3
  | .idle      => 0b000
  | .startLow  => 0b001
  | .startHigh => 0b010
  | .hsLow     => 0b011
  | .hsHigh    => 0b100
  | .bitHigh   => 0b101
  | .bitLow    => 0b110
  | .validate  => 0b111

/-- OUTCOME's code (30_encoding.md R86). -/
def OutcomeCode.code : OutcomeCode → BitVec 3
  | .none             => 0b000
  | .success          => 0b001
  | .checksumMismatch => 0b010
  | .timeoutHsLow     => 0b011
  | .timeoutHsHigh    => 0b100
  | .timeoutBit       => 0b101

/-- The FSM state of a code (30_encoding.md R85: all eight codes are used). Bit 2 is tested first, then 1, then 0. -/
def stateOfCode (c : BitVec 3) : FsmState :=
  match c.getLsbD 2, c.getLsbD 1, c.getLsbD 0 with
  | false, false, false => .idle
  | false, false, true  => .startLow
  | false, true,  false => .startHigh
  | false, true,  true  => .hsLow
  | true,  false, false => .hsHigh
  | true,  false, true  => .bitHigh
  | true,  true,  false => .bitLow
  | true,  true,  true  => .validate

/-- The host command of `cmd[1:0]` (30_encoding.md R81). -/
def decodeCmd (c : BitVec 2) : Instr :=
  match c.getLsbD 1, c.getLsbD 0 with
  | false, false => .nop
  | false, true  => .acquire
  | true,  false => .reservedCmd2
  | true,  true  => .reservedCmd3

/-- The operation of a STATE row (30_encoding.md R85). -/
def instrOfState : FsmState → Instr
  | .idle      => .idle
  | .startLow  => .startLow
  | .startHigh => .startHigh
  | .hsLow     => .hsLow
  | .hsHigh    => .hsHigh
  | .bitHigh   => .bitHigh
  | .bitLow    => .bitLow
  | .validate  => .validate

/-- Why a word is no operation. -/
inductive DecodeError where
  /-- The bits do not fit the format's width (30_encoding.md R91). -/
  | wordTooWide
  /-- `rst = 0` selects no operation by itself: STATE or `cmd` does (30_encoding.md R89). -/
  | resetNotAsserted
  deriving DecidableEq, Repr

/-- The decoder of one encoded word, total on every format and number (spec/opcode_table.json; 30_encoding.md R81,
R85). -/
def decode (w : TableWord) : Except DecodeError Instr :=
  if w.wellFormed then
    match w.format with
    | .rst   => if w.bits = 1 then .ok .rst else .error .resetNotAsserted
    | .cmd   => .ok (decodeCmd (BitVec.ofNat 2 w.bits))
    | .state => .ok (instrOfState (stateOfCode (BitVec.ofNat 3 w.bits)))
  else .error .wordTooWide

/-- The word of an instruction (spec/opcode_table.json's rows; 30_encoding.md R81, R85). -/
def encode : Instr → TableWord
  | .rst          => ⟨.rst, 0b1⟩
  | .nop          => ⟨.cmd, 0b00⟩
  | .acquire      => ⟨.cmd, 0b01⟩
  | .reservedCmd2 => ⟨.cmd, 0b10⟩
  | .reservedCmd3 => ⟨.cmd, 0b11⟩
  | .idle         => ⟨.state, 0b000⟩
  | .startLow     => ⟨.state, 0b001⟩
  | .startHigh    => ⟨.state, 0b010⟩
  | .hsLow        => ⟨.state, 0b011⟩
  | .hsHigh       => ⟨.state, 0b100⟩
  | .bitHigh      => ⟨.state, 0b101⟩
  | .bitLow       => ⟨.state, 0b110⟩
  | .validate     => ⟨.state, 0b111⟩

/-- How a step's operation is chosen (30_encoding.md R89): `rst` first; in IDLE the command; else STATE's row. The
operation of the IDLE row is that choice by command (log entry 6). -/
def decodeStep (rst : Bool) (st : FsmState) (cmd : BitVec 2) : Instr :=
  if rst then .rst
  else match st with
    | .idle      => decodeCmd cmd
    | .startLow  => .startLow
    | .startHigh => .startHigh
    | .hsLow     => .hsLow
    | .hsHigh    => .hsHigh
    | .bitHigh   => .bitHigh
    | .bitLow    => .bitLow
    | .validate  => .validate

/-- The format in which a bare table word of `nbits` bits is read. A row's own width names its format; a width in
whole bytes names none, and is read in the widest, STATE (DESIGN CHOICE, log entry 3). -/
def formatOfWidth : Nat → Format
  | 1 => .rst
  | 2 => .cmd
  | _ => .state

/-- The host's question: the instruction the decoder reads from a table word. -/
def decodeTableWord (nbits w : Nat) : Option Instr :=
  (decode ⟨formatOfWidth nbits, w⟩).toOption

end Sys2Proof
end

