-- ==== Sys2Proof/Machine/State.lean ====
section
/-! DEFINITION. The block's state: the twelve registers of spec/10_state.md R23, each at the value of R43 after a reset
step, and beside them the samples the environment supplies (the model's own two fields, log entry 1); and the reasons
for which a step could stop. -/

namespace Sys2Proof.Machine

/-- The registers of 10_state.md R23 ("nothing else is state"), and the environment's coming samples. -/
structure State where
  /-- STATE, 3 bits: the sequencing register (R25, R28). -/
  state    : FsmState
  /-- FRAME, 40 bits: the raw frame accumulator, B0 at the top (R27). Hidden (R42). -/
  frame    : Frame
  /-- BITCOUNT, 6 bits: bits completed in this acquisition (R29). -/
  bitcount : BitVec 6
  /-- T0, 32 bits: start time of the current hold or wait (R33). Hidden (R42). -/
  t0       : Time
  /-- OUTCOME, 3 bits (R30). -/
  outcome  : OutcomeCode
  /-- VALID, 1 bit (R31). -/
  valid    : Bool
  /-- DONE, 1 bit: the completion pulse (R32). -/
  done     : Bool
  /-- LINE_OE, 1 bit: 1 drives the data line (R34). -/
  lineOe   : Bool
  /-- LINE_OUT, 1 bit: the driven level (R34). -/
  lineOut  : Bool
  /-- HUM_R, 16 bits (R35). -/
  humR     : Half
  /-- TEMP_R, 16 bits: sign and magnitude (R36). -/
  tempR    : Half
  /-- TEMP_X10_R, 16 bits: two's complement tenths (R37). -/
  tempX10R : Half
  /-- The model's own: the samples placed for the coming steps, oldest first (R12, R21; log entry 1). -/
  samples  : List Sample
  /-- The model's own: steps taken so far, the argument of the free sample where none is placed (log entry 1). -/
  tick     : Nat
  deriving DecidableEq, Repr

/-- The reasons for which the machine stops with a fault: none. The block has no trap, no memory and no illegal
operation (60_exceptions.md R200, 20_memory.md R60, 30_encoding.md R84, R89); its exceptions are outcomes, which are
next states (R203). -/
inductive Fault where
  deriving DecidableEq, Repr

/-- The reasons for which an operation is refused. -/
inductive Refusal where
  /-- Raised by an arm of `exec` that has no meaning yet (there is none left). Safe: nothing is claimed of it. -/
  | notModelled (mnemonic : String)
  deriving DecidableEq, Repr

/-- The state right after a reset step, every register at its value of 10_state.md R43; no sample placed, no step
counted (DESIGN CHOICE, log entry 1). -/
def State.reset : State where
  state    := .idle
  frame    := 0
  bitcount := 0
  t0       := 0
  outcome  := .none
  valid    := false
  done     := false
  lineOe   := false
  lineOut  := true
  humR     := 0
  tempR    := 0
  tempX10R := 0
  samples  := []
  tick     := 0

end Sys2Proof.Machine
end

