-- ==== Sys2Proof/Machine/Flags.lean ====
section
/-! DEFINITION. The status flags and the packed status word (spec/10_state.md R26, R32, R38). The block has no condition
codes (R41). -/

namespace Sys2Proof.Machine

/-- BUSY, combinational: `STATE != IDLE` (10_state.md R26). -/
def State.busy (s : State) : Bool := decide (s.state ≠ .idle)

/-- One bit as a word. -/
def flagBit (b : Bool) : BitVec 1 := if b then 1 else 0

/-- The packed status word (10_state.md R38), from bit 15 down: reserved 0, BITCOUNT, STATE, OUTCOME, VALID, DONE,
BUSY. -/
def State.status (s : State) : Half :=
  (0 : BitVec 1) ++ s.bitcount ++ s.state.code ++ s.outcome.code ++
    flagBit s.valid ++ flagBit s.done ++ flagBit s.busy

/-- DONE in a step that does not finish an acquisition (10_state.md R32). -/
def State.clearDone (s : State) : State := { s with done := false }

end Sys2Proof.Machine
end

