-- ==== Sys2Proof/Machine/Operands.lean ====
section
/-! DEFINITION. What a step reads of the environment: its sample (spec/00_scope.md R12), and how the next step's sample
comes up. No operation has another operand (spec/30_encoding.md R88). -/

namespace Sys2Proof.Machine

/-- This step's sample, the same for the whole step (00_scope.md R12): the one the environment has placed, else the
free sample of this step number (93 I2, I3, I4; log entry 1). -/
def State.sample (s : State) : Sample :=
  match s.samples with
  | x :: _ => x
  | []     => Config.drawSample s.tick

/-- `t`, the microsecond timer's value in this step (R12). -/
def State.now (s : State) : Time := s.sample.usNow

/-- `l`, the data line's level in this step; `true` is high (R12, R17). -/
def State.level (s : State) : Bool := s.sample.lineIn

/-- The step is over: the next step reads the next sample (10_state.md R20). -/
def State.advance (s : State) : State :=
  { s with samples := s.samples.tail, tick := s.tick + 1 }

/-- A sample that asks for nothing: `rst = 0`, `cmd = NOP`, time 0, line at its idle level high. It stands in only for
the ports a placed table word says nothing of (log entry 2). -/
def quietSample : Sample := ⟨false, 0b00, 0, true⟩

/-- The sample placed for this step, else the quiet one. -/
def State.placedSample (s : State) : Sample := s.samples.headD quietSample

end Sys2Proof.Machine
end

