-- ==== Sys2Proof/Machine/Ops.lean ====
section
/-! DEFINITION. The shared operations of the states: elapsed time, Drive and Release, `finish` (the block's only "trap
entry"), the timed hold and the timed level wait, bit placement, the checksum and the value encoder (spec/00_scope.md
R13, spec/40_busy_wait.md, spec/41_bit_decoder.md R122 to R124, spec/42_frame_reader.md R160, spec/43_value_model.md
R180 to R182, spec/60_exceptions.md R203). Every one reads the state at the start of the step (R11). -/

namespace Sys2Proof.Machine

/-- `elapsed(T0, t) = (t - T0) mod 2^32` (40_busy_wait.md R101). -/
def elapsed (t0 t : Time) : Time := t - t0

/-- The elapsed time of the current hold or wait at this step's sample, compared as an exact non-negative integer
(00_scope.md R10). -/
def State.elapsedUs (s : State) : Nat := (elapsed s.t0 s.now).toNat

/-- `Drive(oe, v)`: both drive registers in one step (00_scope.md R13, 20_memory.md R62). -/
def State.drive (oe v : Bool) (s : State) : State := { s with lineOe := oe, lineOut := v }

/-- `Release()`: the line becomes an input; LINE_OUT keeps its value (00_scope.md R13, 10_state.md R34). -/
def State.release (s : State) : State := { s with lineOe := false }

/-- `finish(o)`: OUTCOME <- o, STATE <- IDLE, DONE <- 1, and nothing else; SUCCESS's publication stands beside it
(60_exceptions.md R203). There is no return from it (R208). -/
def State.finish (o : OutcomeCode) (s : State) : State :=
  { s with outcome := o, state := .idle, done := true }

/-- Moving STATE into a hold or wait state: T0 <- t, the start time of that operation (40_busy_wait.md R105). -/
def State.enter (st : FsmState) (s : State) : State :=
  { s with state := st, t0 := s.now, done := false }

/-- A timed hold of `d` microseconds (40_busy_wait.md R102): completes when elapsed >= d, else stays. -/
def State.hold (d : Nat) (complete : State → State) (s : State) : State :=
  if d ≤ s.elapsedUs then complete s else s.clearDone

/-- A timed wait for level `l` with timeout `limit` (40_busy_wait.md R103): the level test comes first (R104), then
elapsed > limit raises the state's timeout outcome, else the state stays. -/
def State.waitLevel (l : Bool) (limit : Nat) (timeout : OutcomeCode) (success : State → State)
    (s : State) : State :=
  if s.level = l then success s
  else if limit < s.elapsedUs then s.finish timeout
  else s.clearDone

/-- Byte k of the frame: `B_k = FRAME[39-8k : 32-8k]`, k = 0 to 4 (10_state.md R27). -/
def frameByte (f : Frame) (k : Nat) : BitVec 8 := f.extractLsb' (32 - 8 * k) 8

/-- Bit classification: 1 iff the pulse lasted more than 45 us (41_bit_decoder.md R123). -/
def classifyBit (e : Nat) : Bool := decide (Config.T_BIT_THRESHOLD < e)

/-- Bit placement: the i-th bit is OR-ed into FRAME[39 - i] (41_bit_decoder.md R122, R124). For i >= 40 the position
names no bit and the result is a free value (log entry 5). -/
def placeBit (i : BitVec 6) (f : Frame) (b : Bool) : Frame :=
  if i.toNat < Config.N_BITS then
    f ||| ((if b then (1 : Frame) else 0) <<< (Config.N_BITS - 1 - i.toNat))
  else Config.freeFrame i f b

/-- `checksum_ok(FRAME) = (((B0 + B1 + B2 + B3) mod 256) == B4)`: the 8-bit wraparound sum (42_frame_reader.md
R160). -/
def checksumOk (f : Frame) : Bool :=
  frameByte f 0 + frameByte f 1 + frameByte f 2 + frameByte f 3 == frameByte f 4

/-- The humidity word `{B0, B1}` (43_value_model.md R180). -/
def humidityWord (f : Frame) : Half := frameByte f 0 ++ frameByte f 1

/-- The temperature word `{B2, B3}` as transmitted (43_value_model.md R181). -/
def temperatureWord (f : Frame) : Half := frameByte f 2 ++ frameByte f 3

/-- The sign of a temperature word: bit 15 (43_value_model.md R181). -/
def tempSign (w : Half) : Bool := w.getLsbD 15

/-- The magnitude of a temperature word in tenths: bits 14:0 (43_value_model.md R181). -/
def tempMag (w : Half) : Nat := (w.extractLsb' 0 15).toNat

/-- `TEMP_X10_R <- sign ? ((2^16 - mag) mod 2^16) : mag` (43_value_model.md R182). -/
def tempX10 (w : Half) : Half :=
  if tempSign w then BitVec.ofNat 16 (2 ^ 16 - tempMag w) else BitVec.ofNat 16 (tempMag w)

/-- Publication of a Reading: VALID <- 1 and the three words (42_frame_reader.md R150, 43_value_model.md R180 to
R182). -/
def State.publish (s : State) : State :=
  { s with
    valid    := true
    humR     := humidityWord s.frame
    tempR    := temperatureWord s.frame
    tempX10R := tempX10 (temperatureWord s.frame) }

/-- IDLE without a request: DONE <- 0, no other register changes (42_frame_reader.md R141). -/
def State.noRequest (s : State) : State := s.clearDone

/-- ACQUIRE accepted: Drive(1, 0), T0 <- t, and every register an acquisition reads or publishes is cleared
(42_frame_reader.md R142). -/
def State.acceptAcquire (s : State) : State :=
  { (s.drive true false).enter .startLow with
    frame    := 0
    bitcount := 0
    outcome  := .none
    valid    := false
    humR     := 0
    tempR    := 0
    tempX10R := 0 }

/-- START_LOW with a hold of `d` us: on completion LINE_OUT <- 1 with LINE_OE unchanged (42_frame_reader.md R144). -/
def State.startLowStep (d : Nat) (s : State) : State :=
  s.hold d (fun s => { s with lineOut := true }.enter .startHigh)

/-- START_HIGH with a hold of `d` us: on completion Release() (42_frame_reader.md R145). -/
def State.startHighStep (d : Nat) (s : State) : State :=
  s.hold d (fun s => s.release.enter .hsLow)

/-- HS_LOW: wait for low (42_frame_reader.md R147). -/
def State.hsLowStep (s : State) : State :=
  s.waitLevel false Config.T_HS_TIMEOUT .timeoutHsLow (·.enter .hsHigh)

/-- HS_HIGH: wait for high; the next state is BIT_HIGH directly (42_frame_reader.md R148). -/
def State.hsHighStep (s : State) : State :=
  s.waitLevel true Config.T_HS_TIMEOUT .timeoutHsHigh (·.enter .bitHigh)

/-- BIT_HIGH: wait for the rise; T0 becomes the rise time (41_bit_decoder.md R121). -/
def State.bitHighStep (s : State) : State :=
  s.waitLevel true Config.T_BIT_TIMEOUT .timeoutBit (·.enter .bitLow)

/-- The fall is seen: classify, place, count, and go to the next bit or to VALIDATE after the 40th
(41_bit_decoder.md R122). BITCOUNT is read at the start of the step (00_scope.md R11). -/
def State.takeBit (s : State) : State :=
  { s.enter (if s.bitcount.toNat + 1 = Config.N_BITS then .validate else .bitHigh) with
    frame    := placeBit s.bitcount s.frame (classifyBit s.elapsedUs)
    bitcount := s.bitcount + 1 }

/-- BIT_LOW: wait for the fall (41_bit_decoder.md R122). -/
def State.bitLowStep (s : State) : State :=
  s.waitLevel false Config.T_BIT_TIMEOUT .timeoutBit State.takeBit

/-- VALIDATE: one step, the sample not read (42_frame_reader.md R150). -/
def State.validateStep (s : State) : State :=
  if checksumOk s.frame then s.publish.finish .success else s.finish .checksumMismatch

/-- A reset step: every register at its reset value, the environment's samples untouched (70_reset_and_hazards.md
R230, 10_state.md R43). -/
def State.resetStep (s : State) : State :=
  { State.reset with samples := s.samples, tick := s.tick }

end Sys2Proof.Machine
end

