-- ==== Sys2Proof/Machine/Bits.lean ====
section
/-! DEFINITION. The pulse-width bit sampler, read_bit: BIT_HIGH and BIT_LOW (spec/41_bit_decoder.md R121, R122). -/

namespace Sys2Proof.Machine

/-- BIT_HIGH (41_bit_decoder.md R121). -/
def execBitHigh (s : State) : Host.Outcome State Fault Refusal := .next s.bitHighStep

/-- BIT_LOW (41_bit_decoder.md R122). -/
def execBitLow (s : State) : Host.Outcome State Fault Refusal := .next s.bitLowStep

end Sys2Proof.Machine
end

