-- ==== Sys2Proof/Machine/Command.lean ====
section
/-! DEFINITION. The meanings of RST, of the host commands and of the IDLE row (spec/70_reset_and_hazards.md R230,
spec/42_frame_reader.md R141, R142, spec/30_encoding.md R84, R89). -/

namespace Sys2Proof.Machine

/-- RST (70_reset_and_hazards.md R230). -/
def execRst (s : State) : Host.Outcome State Fault Refusal := .next s.resetStep

/-- NOP (42_frame_reader.md R141). -/
def execNop (s : State) : Host.Outcome State Fault Refusal := .next s.noRequest

/-- ACQUIRE (42_frame_reader.md R142). -/
def execAcquire (s : State) : Host.Outcome State Fault Refusal := .next s.acceptAcquire

/-- RESERVED_CMD_2 does exactly what NOP does (30_encoding.md R84). -/
def execReservedCmd2 (s : State) : Host.Outcome State Fault Refusal := .next s.noRequest

/-- RESERVED_CMD_3 does exactly what NOP does (30_encoding.md R84). -/
def execReservedCmd3 (s : State) : Host.Outcome State Fault Refusal := .next s.noRequest

/-- IDLE waits for a command: ACQUIRE is accepted, NOP and the reserved codes are not requests (42_frame_reader.md
R141, R142; 30_encoding.md R89). -/
def execIdle (s : State) : Host.Outcome State Fault Refusal :=
  .next (if s.sample.cmd = 0b01 then s.acceptAcquire else s.noRequest)

end Sys2Proof.Machine
end

