-- ==== Sys2Proof/Machine/Handshake.lean ====
section
/-! DEFINITION. The handshake: HS_LOW and HS_HIGH (spec/42_frame_reader.md R147, R148). -/

namespace Sys2Proof.Machine

/-- HS_LOW (42_frame_reader.md R147). -/
def execHsLow (s : State) : Host.Outcome State Fault Refusal := .next s.hsLowStep

/-- HS_HIGH (42_frame_reader.md R148). -/
def execHsHigh (s : State) : Host.Outcome State Fault Refusal := .next s.hsHighStep

end Sys2Proof.Machine
end

