-- ==== Sys2Proof/Machine/Start.lean ====
section
/-! DEFINITION. The start-signal generator: START_LOW and START_HIGH (spec/42_frame_reader.md R144, R145). -/

namespace Sys2Proof.Machine

/-- START_LOW: hold the line low for T_START_LOW (42_frame_reader.md R144). -/
def execStartLow (s : State) : Host.Outcome State Fault Refusal :=
  .next (s.startLowStep Config.T_START_LOW)

/-- START_HIGH: hold the line high for T_START_HIGH, then release it (42_frame_reader.md R145). -/
def execStartHigh (s : State) : Host.Outcome State Fault Refusal :=
  .next (s.startHighStep Config.T_START_HIGH)

end Sys2Proof.Machine
end

