-- ==== Sys2Proof/Machine/Validate.lean ====
section
/-! DEFINITION. The checksum validator and its outcome: VALIDATE (spec/42_frame_reader.md R150). -/

namespace Sys2Proof.Machine

/-- VALIDATE (42_frame_reader.md R150). -/
def execValidate (s : State) : Host.Outcome State Fault Refusal := .next s.validateStep

end Sys2Proof.Machine
end

