-- ==== Sys2Proof/Machine/Dispatch.lean ====
section
/-! DEFINITION. One arm per constructor of Instr, each one direct call of its meaning. -/

namespace Sys2Proof.Machine

def exec (i : Instr) (s : State) : Host.Outcome State Fault Refusal :=
  match i with
  | .rst => Sys2Proof.Machine.execRst s
  | .nop => Sys2Proof.Machine.execNop s
  | .acquire => Sys2Proof.Machine.execAcquire s
  | .reservedCmd2 => Sys2Proof.Machine.execReservedCmd2 s
  | .reservedCmd3 => Sys2Proof.Machine.execReservedCmd3 s
  | .idle => Sys2Proof.Machine.execIdle s
  | .startLow => Sys2Proof.Machine.execStartLow s
  | .startHigh => Sys2Proof.Machine.execStartHigh s
  | .hsLow => Sys2Proof.Machine.execHsLow s
  | .hsHigh => Sys2Proof.Machine.execHsHigh s
  | .bitHigh => Sys2Proof.Machine.execBitHigh s
  | .bitLow => Sys2Proof.Machine.execBitLow s
  | .validate => Sys2Proof.Machine.execValidate s

end Sys2Proof.Machine
end

