-- ==== Sys2Proof/Machine/Fetch.lean ====
section
/-! DEFINITION. How a step comes by its operation: not from memory at a program counter (there is neither,
spec/10_state.md R28, spec/20_memory.md R74) but from the sample and STATE (spec/30_encoding.md R89); and how a table
word is placed so that the next step runs it. -/

namespace Sys2Proof.Machine

/-- The operation this step performs (30_encoding.md R89). -/
def State.currentInstr (s : State) : Instr := decodeStep s.sample.rst s.state s.sample.cmd

/-- The placed sample, with `rst` and `cmd` as given, becomes this step's sample. -/
def State.withInputs (rst : Bool) (cmd : BitVec 2) (s : State) : State :=
  { s with samples := { s.placedSample with rst := rst, cmd := cmd } :: s.samples.tail }

/-- A table word placed where the next step takes its operation from (log entry 2): RST on the `rst` port; a command on
the `cmd` port with STATE = IDLE; a STATE code in STATE, with `rst = 0`. A word that does not fit its format changes
nothing. -/
def State.placeWord (s : State) (w : TableWord) : State :=
  if w.wellFormed then
    match w.format with
    | .rst   => s.withInputs (decide (w.bits = 1)) s.placedSample.cmd
    | .cmd   => { s with state := .idle }.withInputs false (BitVec.ofNat 2 w.bits)
    | .state => { s with state := stateOfCode (BitVec.ofNat 3 w.bits) }.withInputs false s.placedSample.cmd
  else s

end Sys2Proof.Machine
end

