-- ==== Sys2Proof/Machine/Step.lean ====
section
/-! DEFINITION. One step of the block: the operation that rst, STATE and cmd select (spec/30_encoding.md R89) runs on
this step's sample, and the next sample comes up (spec/10_state.md R20). -/

namespace Sys2Proof.Machine

/-- One clock step. -/
def step (s : State) : Host.Outcome State Fault Refusal :=
  match exec s.currentInstr s with
  | .next t    => .next t.advance
  | .fault r   => .fault r
  | .refused r => .refused r

/-- The host's placement of one table word (log entries 2 and 3). -/
def State.withFetchWord (s : State) (nbits w : Nat) : State :=
  s.placeWord ⟨formatOfWidth nbits, w⟩

end Sys2Proof.Machine
end

