-- ==== Sys2Proof/Machine/Variant.lean ====
section
/-! DEFINITION. The machine over the parameters the spec leaves a model free to take: T_START_LOW and T_START_HIGH in
the source's ranges (spec/00_scope.md R7, 93 I10) and `first_bit_align` (92 D8, 93 I13), under which one extra
wait_for_level(low, 100) runs after HS_HIGH with its timeout reported as TIMEOUT_HS_HIGH. With the spec's own values it
is the machine of Step.lean. That extra wait needs one bit that the spec's registers do not have; STATE shows HS_HIGH
during it (DESIGN CHOICE, log entry 10). -/

namespace Sys2Proof.Machine

/-- The block and the variant's own bit: the extra low wait is running. -/
structure VariantState where
  block    : State
  aligning : Bool
  deriving DecidableEq, Repr

/-- The variant's HS_HIGH (92 D8): the high seen starts the extra low wait, and its low starts BIT_HIGH. -/
def VariantState.alignedHsHigh (v : VariantState) : VariantState :=
  if v.aligning then
    if v.block.level = false then ⟨v.block.enter .bitHigh, false⟩
    else if Config.T_HS_TIMEOUT < v.block.elapsedUs then ⟨v.block.finish .timeoutHsHigh, false⟩
    else ⟨v.block.clearDone, true⟩
  else
    if v.block.level = true then ⟨v.block.enter .hsHigh, true⟩
    else if Config.T_HS_TIMEOUT < v.block.elapsedUs then ⟨v.block.finish .timeoutHsHigh, false⟩
    else ⟨v.block.clearDone, false⟩

/-- The state that an operation leaves under the parameters p. -/
def variantEffect (p : Config.Params) (i : Instr) (v : VariantState) : VariantState :=
  match i with
  | .rst          => ⟨v.block.resetStep, false⟩
  | .nop          => { v with block := v.block.noRequest }
  | .acquire      => { v with block := v.block.acceptAcquire }
  | .reservedCmd2 => { v with block := v.block.noRequest }
  | .reservedCmd3 => { v with block := v.block.noRequest }
  | .idle         =>
    { v with block := if v.block.sample.cmd = 0b01 then v.block.acceptAcquire else v.block.noRequest }
  | .startLow     => { v with block := v.block.startLowStep p.tStartLow }
  | .startHigh    => { v with block := v.block.startHighStep p.tStartHigh }
  | .hsLow        => { v with block := v.block.hsLowStep }
  | .hsHigh       =>
    if p.firstBitAlign then v.alignedHsHigh else { v with block := v.block.hsHighStep }
  | .bitHigh      => { v with block := v.block.bitHighStep }
  | .bitLow       => { v with block := v.block.bitLowStep }
  | .validate     => { v with block := v.block.validateStep }

/-- One step of the variant machine; like the block's, it always has a next state. -/
def variantStep (p : Config.Params) (v : VariantState) : VariantState :=
  let w := variantEffect p v.block.currentInstr v
  { w with block := w.block.advance }

end Sys2Proof.Machine
end

