-- ==== Sys2Proof/Machine/Ports.lean ====
section
/-! DEFINITION. The output ports (spec/10_state.md R22, R39): copies of registers as they stand at the start of a step,
so a register written in step k is on its port from step k+1. Reading them changes nothing (spec/20_memory.md R64). -/

namespace Sys2Proof.Machine

/-- The output ports (10_state.md R22). -/
structure Ports where
  lineOe  : Bool
  lineOut : Bool
  status  : Half
  hum     : Half
  temp    : Half
  tempX10 : Half
  deriving DecidableEq, Repr

/-- What the ports show (10_state.md R38, R39). -/
def State.ports (s : State) : Ports where
  lineOe  := s.lineOe
  lineOut := s.lineOut
  status  := s.status
  hum     := s.humR
  temp    := s.tempR
  tempX10 := s.tempX10R

end Sys2Proof.Machine
end

