-- ==== Sys2Proof/Machine/Values.lean ====
section
/-! DEFINITION. What the host reads from the block's words: the Reading as exact rationals (spec/00_scope.md R15,
spec/43_value_model.md R180, R181, R184), the source's ProtocolOutcome (R16, spec/60_exceptions.md R200), and the float
view under a named parameter (R185, 93 I9; log entry 11). Nothing here is state, and no step reads it. -/

namespace Sys2Proof.Machine

/-- A Reading, exactly: humidity in tenths of %RH, temperature as sign and magnitude in tenths of degC. The sign is kept
at magnitude 0 (43_value_model.md R184). -/
structure Reading where
  humTenths  : Nat
  negative   : Bool
  tempTenths : Nat
  deriving DecidableEq, Repr

/-- The Reading that the reading words hold. -/
def State.reading (s : State) : Reading := ⟨s.humR.toNat, tempSign s.tempR, tempMag s.tempR⟩

/-- `hum = HUM_R / 10` %RH (43_value_model.md R180). -/
def Reading.humidity (r : Reading) : ℚ := (r.humTenths : ℚ) / 10

/-- `temp = sign ? -(mag / 10) : (mag / 10)` degC (43_value_model.md R181). -/
def Reading.temperature (r : Reading) : ℚ :=
  if r.negative then -((r.tempTenths : ℚ) / 10) else (r.tempTenths : ℚ) / 10

/-- FLOAT_VIEW (43_value_model.md R185): the host's rounding of sign and tenths to its own number type F. -/
def Reading.floatView {F : Type} (view : Bool → Nat → F) (r : Reading) : F × F :=
  (view false r.humTenths, view r.negative r.tempTenths)

/-- The source's ProtocolOutcome (00_scope.md R16). -/
inductive ProtocolOutcome where
  | success (r : Reading)
  | checksumMismatch
  | timeout (phase : Phase)
  deriving DecidableEq, Repr

/-- The outcome of the last finished acquisition, if there is one (60_exceptions.md R200, 30_encoding.md R86). -/
def State.protocolOutcome (s : State) : Option ProtocolOutcome :=
  match s.outcome with
  | .none             => none
  | .success          => some (.success s.reading)
  | .checksumMismatch => some .checksumMismatch
  | .timeoutHsLow     => some (.timeout .handshakeLow)
  | .timeoutHsHigh    => some (.timeout .handshakeHigh)
  | .timeoutBit       => some (.timeout .bitRead)

end Sys2Proof.Machine
end

