-- ==== Sys2Proof/Safety.lean ====
section
/-! DEFINITION. What a good state and a good environment are, in the terms the claims use: the invariants of
spec/10_state.md R45, what an outcome records (spec/60_exceptions.md R200), runs, sample schedules and their premises
(spec/40_busy_wait.md R100, spec/70_reset_and_hazards.md R234, R235, R237), and line waveforms as lists of samples. -/

namespace Sys2Proof.Machine

/-- The invariants of 10_state.md R45, in its order (item 6 in four parts), and one more that DONE needs. -/
structure State.Inv (s : State) : Prop where
  /-- Item 1. -/
  driving : s.lineOe = true ↔ s.state = .startLow ∨ s.state = .startHigh
  /-- Item 2. -/
  drivenLow : s.lineOut = false ↔ s.state = .startLow
  /-- Item 3. -/
  validOutcome : s.valid = true ↔ s.outcome = .success
  /-- Item 4. -/
  noReading : s.valid = false → s.humR = 0 ∧ s.tempR = 0 ∧ s.tempX10R = 0
  /-- Item 5. -/
  busyOutcome : s.state ≠ .idle → s.outcome = .none ∧ s.valid = false
  /-- Item 6. -/
  countBound : s.bitcount.toNat ≤ Config.N_BITS
  countReading : s.state = .bitHigh ∨ s.state = .bitLow → s.bitcount.toNat < Config.N_BITS
  countValidate : s.state = .validate → s.bitcount.toNat = Config.N_BITS
  countStart : s.state = .startLow ∨ s.state = .startHigh ∨ s.state = .hsLow ∨ s.state = .hsHigh →
    s.bitcount.toNat = 0
  /-- Item 7. -/
  frameUnread : ∀ i, s.bitcount.toNat ≤ i → i < Config.N_BITS →
    s.frame.getLsbD (Config.N_BITS - 1 - i) = false
  /-- Item 8. -/
  outcomeCode : s.outcome.code ≠ 0b110 ∧ s.outcome.code ≠ 0b111
  /-- Not in R45: the completion pulse is seen in IDLE only, with an outcome recorded (from R32 and R203). -/
  doneIdle : s.done = true → s.state = .idle ∧ s.outcome ≠ .none

/-- What each outcome records (60_exceptions.md R200; 10_state.md R31, R35, R36, R37). -/
structure State.Recorded (s : State) : Prop where
  success : s.outcome = .success →
    s.bitcount.toNat = Config.N_BITS ∧ checksumOk s.frame = true ∧ s.humR = humidityWord s.frame ∧
    s.tempR = temperatureWord s.frame ∧ s.tempX10R = tempX10 (temperatureWord s.frame)
  checksumMismatch : s.outcome = .checksumMismatch →
    s.bitcount.toNat = Config.N_BITS ∧ checksumOk s.frame = false
  timeoutHandshake : s.outcome = .timeoutHsLow ∨ s.outcome = .timeoutHsHigh → s.bitcount.toNat = 0
  timeoutBit : s.outcome = .timeoutBit → s.bitcount.toNat < Config.N_BITS

/-- The states that hold or wait, and so read T0 (40_busy_wait.md R102, R103). -/
def timed : FsmState → Bool
  | .idle | .validate => false
  | .startLow | .startHigh | .hsLow | .hsHigh | .bitHigh | .bitLow => true

/-- The states that read the line (20_memory.md R63). -/
def readsLine : FsmState → Bool
  | .idle | .startLow | .startHigh | .validate => false
  | .hsLow | .hsHigh | .bitHigh | .bitLow => true

/-- The level a wait state waits for, and its timeout outcome (40_busy_wait.md R103). -/
def awaited : FsmState → Option (Bool × OutcomeCode)
  | .hsLow   => some (false, .timeoutHsLow)
  | .hsHigh  => some (true, .timeoutHsHigh)
  | .bitHigh => some (true, .timeoutBit)
  | .bitLow  => some (false, .timeoutBit)
  | .idle | .startLow | .startHigh | .validate => none

/-- The states that a step without reset may leave `q` for, `q` itself where it can stay (42_frame_reader.md R140). -/
def successors : FsmState → List FsmState
  | .idle      => [.idle, .startLow]
  | .startLow  => [.startLow, .startHigh]
  | .startHigh => [.startHigh, .hsLow]
  | .hsLow     => [.hsLow, .hsHigh, .idle]
  | .hsHigh    => [.hsHigh, .bitHigh, .idle]
  | .bitHigh   => [.bitHigh, .bitLow, .idle]
  | .bitLow    => [.bitLow, .bitHigh, .validate, .idle]
  | .validate  => [.idle]

/-- How many holds, waits and checks an acquisition has still ahead of it in a state with `n` bits read, the current one
included (42_frame_reader.md R140, R149); 0 in IDLE. -/
def phasesLeft (q : FsmState) (n : Nat) : Nat :=
  match q with
  | .idle      => 0
  | .startLow  => 85
  | .startHigh => 84
  | .hsLow     => 83
  | .hsHigh    => 82
  | .bitHigh   => 81 - 2 * n
  | .bitLow    => 80 - 2 * n
  | .validate  => 1

/-- n steps. -/
def run (n : Nat) (s : State) : Host.Outcome State Fault Refusal := Host.Core.run Sys2Proof.core n s

/-- Host duty R234 in this step: no ACQUIRE while BUSY = 1 (in a reset step no command is decoded, R230). A host that
breaks it is outside every claim, so every statement about a step takes it as a premise (92 D12, 93 I5; log entry 7). -/
abbrev State.acquireDuty (s : State) : Prop := s.busy = true → s.sample.rst = false → s.sample.cmd ≠ 0b01

/-- Host duty R234 in each of the next n steps. -/
def State.keepsDuty (n : Nat) (s : State) : Prop := ∀ k < n, ∀ t, run k s = .next t → t.acquireDuty

/-- Host duty R235: at least T_IDLE_MIN from the step that finishes to the step that accepts the next ACQUIRE. -/
def idleDuty (finished accepted : Nat) : Prop := finished + Config.T_IDLE_MIN ≤ accepted

/-- 40_busy_wait.md R100: true time τ is non-decreasing and the samples show it modulo 2^32. -/
structure Schedule (τ : Nat → Nat) (xs : List Sample) : Prop where
  monotone : ∀ k, τ k ≤ τ (k + 1)
  stamped  : ∀ k x, xs[k]? = some x → x.usNow = BitVec.ofNat 32 (τ k)

/-- Consecutive samples are at most `d` microseconds apart: Δ of 70_reset_and_hazards.md R240, 1 under R237. -/
def spacedBy (d : Nat) (τ : Nat → Nat) : Prop := ∀ k, τ (k + 1) ≤ τ k + d

/-- The environment places `x` as this step's sample. -/
def State.feed (x : Sample) (s : State) : State := { s with samples := [x] }

/-- n steps on an endless sequence of samples, sample k at step k (10_state.md R20; 00_scope.md R12). -/
def runOn (x : Nat → Sample) : Nat → State → Host.Outcome State Fault Refusal
  | 0, s => .next s
  | n + 1, s =>
    match runOn x n s with
    | .next t    => step (t.feed (x n))
    | .fault r   => .fault r
    | .refused r => .refused r

/-- Host duty R234 in every step on the sequence. -/
def keepsDutyOn (x : Nat → Sample) (s : State) : Prop :=
  ∀ k t, runOn x k s = .next t → (t.feed (x k)).acquireDuty

/-- Weak fairness of time (70_reset_and_hazards.md R242; 40_busy_wait.md R100): true time τ is non-decreasing, the
samples show it modulo 2^32, and it passes every bound. Nothing bounds the sample spacing. -/
structure FairTime (τ : Nat → Nat) (x : Nat → Sample) : Prop where
  monotone : ∀ k, τ k ≤ τ (k + 1)
  stamped  : ∀ k, (x k).usNow = BitVec.ofNat 32 (τ k)
  progress : ∀ j b, ∃ k, j < k ∧ τ j + b < τ k

/-- 40_busy_wait.md R100's assumption that an operation's polls lie within 2^32 us of its start, asked only of a poll
whose predecessor is within the longest duration, 20000 us: so it does not assume that the operation ends. The
operation is a hold or wait state `q` entered by step j (or before) and still occupied when step k + 1 polls. -/
def PollsWithinWrap (τ : Nat → Nat) (x : Nat → Sample) (s : State) : Prop :=
  ∀ (j k : Nat) (q : FsmState), j ≤ k → timed q = true →
    (∀ i, j < i → i ≤ k + 1 → ∃ t, runOn x i s = .next t ∧ t.state = q) →
    τ k ≤ τ j + 20000 → τ (k + 1) < τ j + 2 ^ 32

/-- Samples without reset at line level `l`, each within `limit` of `t0`: the polls in which a wait for the other level
stays (40_busy_wait.md R103). -/
def polls (l : Bool) (t0 : Time) (limit : Nat) (xs : List Sample) : Prop :=
  ∀ x ∈ xs, x.rst = false ∧ x.lineIn = l ∧ (elapsed t0 x.usNow).toNat ≤ limit

/-- Samples without reset, each less than `d` after `t0`: the polls in which a hold stays (40_busy_wait.md R102). -/
def holds (t0 : Time) (d : Nat) (xs : List Sample) : Prop :=
  ∀ x ∈ xs, x.rst = false ∧ (elapsed t0 x.usNow).toNat < d

/-- A sample without reset at line level `l`. -/
def edge (l : Bool) (x : Sample) : Prop := x.rst = false ∧ x.lineIn = l

/-- One bit's samples as read_bit sees them: low polls, the rise, high polls, the fall (41_bit_decoder.md R120). -/
structure Pulse where
  lows  : List Sample
  rise  : Sample
  highs : List Sample
  fall  : Sample

/-- The pulse's samples in order. -/
def Pulse.samples (p : Pulse) : List Sample := p.lows ++ p.rise :: (p.highs ++ [p.fall])

/-- The pulse is in time: the rise wait starts at `t0`, the fall wait at the rise (41_bit_decoder.md R121, R122). -/
def Pulse.inTime (t0 : Time) (p : Pulse) : Prop :=
  polls false t0 Config.T_BIT_TIMEOUT p.lows ∧ edge true p.rise ∧
  polls true p.rise.usNow Config.T_BIT_TIMEOUT p.highs ∧ edge false p.fall

/-- The bit that the pulse's width says (41_bit_decoder.md R123). -/
def Pulse.bit (p : Pulse) : Bool := decide (45 < (p.fall.usNow - p.rise.usNow).toNat)

/-- A train of pulses in time, each bit's wait starting at the fall before it (40_busy_wait.md R105). -/
def pulsesInTime : Time → List Pulse → Prop
  | _, []       => True
  | t0, p :: ps => p.inTime t0 ∧ pulsesInTime p.fall.usNow ps

/-- The time of the last fall. -/
def lastFall : Time → List Pulse → Time
  | t0, []     => t0
  | _, p :: ps => lastFall p.fall.usNow ps

/-- "FRAME read as one 40-bit number is the bit stream in arrival order, first bit at the top" (20_memory.md R66). -/
def frameOfBits (bs : List Bool) : Frame :=
  BitVec.ofNat 40 (bs.foldl (fun n b => 2 * n + b.toNat) 0)

/-- The samples of a whole acquisition in which every phase completes in time. -/
structure Waveform where
  acquire  : Sample
  lowHold  : List Sample
  lowEnd   : Sample
  highHold : List Sample
  highEnd  : Sample
  hsHighs  : List Sample
  hsFall   : Sample
  hsLows   : List Sample
  hsRise   : Sample
  pulses   : List Pulse
  check    : Sample

/-- The waveform's samples in order. -/
def Waveform.samples (w : Waveform) : List Sample :=
  w.acquire :: (w.lowHold ++ w.lowEnd :: (w.highHold ++ w.highEnd :: (w.hsHighs ++ w.hsFall ::
    (w.hsLows ++ w.hsRise :: (w.pulses.flatMap Pulse.samples ++ [w.check])))))

/-- Every phase completes in time (42_frame_reader.md R142 to R150), and there are N_BITS pulses. -/
structure Waveform.InTime (w : Waveform) : Prop where
  acquire  : w.acquire.rst = false ∧ w.acquire.cmd = 0b01
  lowHold  : holds w.acquire.usNow 20000 w.lowHold
  lowEnd   : w.lowEnd.rst = false ∧ 20000 ≤ (elapsed w.acquire.usNow w.lowEnd.usNow).toNat
  highHold : holds w.lowEnd.usNow 30 w.highHold
  highEnd  : w.highEnd.rst = false ∧ 30 ≤ (elapsed w.lowEnd.usNow w.highEnd.usNow).toNat
  hsHighs  : polls true w.highEnd.usNow 100 w.hsHighs
  hsFall   : edge false w.hsFall
  hsLows   : polls false w.hsFall.usNow 100 w.hsLows
  hsRise   : edge true w.hsRise
  pulses   : pulsesInTime w.hsRise.usNow w.pulses
  count    : w.pulses.length = 40
  check    : w.check.rst = false

end Sys2Proof.Machine
end

