-- ==== Sys2Proof/Certificates/Slice0/Obligations.lean ====
section
/-! DEFINITION. The statements for the provers, from the numbered rules of spec/. A statement about an operation is an
equation: it says that the operation answers a next state, every register it writes with the value, and by the record
update that every other register, and the environment's samples, stay. `s.sample` is the step's sample; `.toNat` of a
difference of times is elapsed time (spec/40_busy_wait.md R101). A host that sends ACQUIRE while BUSY is "outside every
claim" (spec/70_reset_and_hazards.md R234; log entry 7): every statement about a step or a run takes the host's duty as
a premise, `acquireDuty` for one step, `keepsDuty` for a run; in a reset step it holds of itself. -/

open Sys2Proof Sys2Proof.Machine

/-! ## Reset -/

/-- R230, R43: a step with `rst = 1` leaves every register at its reset value, whatever STATE and `cmd` are, and the
ports show it. -/
def Obligations.ResetStepLoadsResetValues : Prop :=
  ∀ s : State, s.sample.rst = true → ∃ t, step s = .next t ∧
    t.state = .idle ∧ t.frame = 0 ∧ t.bitcount = 0 ∧ t.t0 = 0 ∧ t.outcome = .none ∧ t.valid = false ∧
    t.done = false ∧ t.lineOe = false ∧ t.lineOut = true ∧ t.humR = 0 ∧ t.tempR = 0 ∧ t.tempX10R = 0 ∧
    t.ports = ⟨false, true, 0x0000, 0, 0, 0⟩

/-- R230: the operation RST. That it leaves the environment's samples is the model's own (log entry 1). -/
def Obligations.RstWritesEveryRegister : Prop :=
  ∀ s : State, exec .rst s = .next
    { state := .idle, frame := 0, bitcount := 0, t0 := 0, outcome := .none, valid := false, done := false,
      lineOe := false, lineOut := true, humR := 0, tempR := 0, tempX10R := 0,
      samples := s.samples, tick := s.tick }

/-! ## Commands -/

/-- R141, R84: NOP and the two reserved commands change no register but DONE, which they clear. -/
def Obligations.NopAndReservedCommandsOnlyClearDone : Prop :=
  ∀ (s : State) (i : Instr), i = .nop ∨ i = .reservedCmd2 ∨ i = .reservedCmd3 →
    exec i s = .next { s with done := false }

/-- R142: ACQUIRE drives the line low, starts the hold at `t` and clears every register an acquisition publishes. -/
def Obligations.AcquireStartsAcquisition : Prop :=
  ∀ s : State, exec .acquire s = .next
    { s with
      lineOe := true, lineOut := false, t0 := s.sample.usNow, frame := 0, bitcount := 0, outcome := .none,
      valid := false, humR := 0, tempR := 0, tempX10R := 0, done := false, state := .startLow }

/-- R89, R141, R142: the IDLE row starts an acquisition on `cmd = 0b01` and on no other command. -/
def Obligations.IdleActsOnCommand : Prop :=
  ∀ s : State,
    (s.sample.cmd = 0b01 → exec .idle s = .next
      { s with
        lineOe := true, lineOut := false, t0 := s.sample.usNow, frame := 0, bitcount := 0, outcome := .none,
        valid := false, humR := 0, tempR := 0, tempX10R := 0, done := false, state := .startLow }) ∧
    (s.sample.cmd ≠ 0b01 → exec .idle s = .next { s with done := false })

/-! ## The states -/

/-- R144: START_LOW. -/
def Obligations.StartLowHoldsThenDrivesHigh : Prop :=
  ∀ s : State, exec .startLow s = .next
    (if 20000 ≤ (s.sample.usNow - s.t0).toNat then
      { s with lineOut := true, t0 := s.sample.usNow, state := .startHigh, done := false }
    else { s with done := false })

/-- R145: START_HIGH. -/
def Obligations.StartHighHoldsThenReleases : Prop :=
  ∀ s : State, exec .startHigh s = .next
    (if 30 ≤ (s.sample.usNow - s.t0).toNat then
      { s with lineOe := false, t0 := s.sample.usNow, state := .hsLow, done := false }
    else { s with done := false })

/-- R147: HS_LOW. -/
def Obligations.HsLowWaitsForLow : Prop :=
  ∀ s : State, exec .hsLow s = .next
    (if s.sample.lineIn = false then { s with t0 := s.sample.usNow, state := .hsHigh, done := false }
    else if 100 < (s.sample.usNow - s.t0).toNat then
      { s with outcome := .timeoutHsLow, state := .idle, done := true }
    else { s with done := false })

/-- R148: HS_HIGH; the next state is BIT_HIGH directly. -/
def Obligations.HsHighWaitsForHigh : Prop :=
  ∀ s : State, exec .hsHigh s = .next
    (if s.sample.lineIn = true then { s with t0 := s.sample.usNow, state := .bitHigh, done := false }
    else if 100 < (s.sample.usNow - s.t0).toNat then
      { s with outcome := .timeoutHsHigh, state := .idle, done := true }
    else { s with done := false })

/-- R121: BIT_HIGH. -/
def Obligations.BitHighWaitsForRise : Prop :=
  ∀ s : State, exec .bitHigh s = .next
    (if s.sample.lineIn = true then { s with t0 := s.sample.usNow, state := .bitLow, done := false }
    else if 100 < (s.sample.usNow - s.t0).toNat then
      { s with outcome := .timeoutBit, state := .idle, done := true }
    else { s with done := false })

/-- R122, R123: BIT_LOW with BITCOUNT = 0 to 39: the pulse is a 1 iff longer than 45 us, its bit is OR-ed into
FRAME[39 - BITCOUNT], and the 40th bit leads to VALIDATE. -/
def Obligations.BitLowMeasuresAndAccumulates : Prop :=
  ∀ s : State, s.bitcount.toNat ≤ 39 → exec .bitLow s = .next
    (if s.sample.lineIn = false then
      { s with
        frame := s.frame |||
          (if 45 < (s.sample.usNow - s.t0).toNat then BitVec.twoPow 40 (39 - s.bitcount.toNat) else 0)
        bitcount := s.bitcount + 1
        t0 := s.sample.usNow
        state := if s.bitcount.toNat = 39 then .validate else .bitHigh
        done := false }
    else if 100 < (s.sample.usNow - s.t0).toNat then
      { s with outcome := .timeoutBit, state := .idle, done := true }
    else { s with done := false })

/-- The model's choice (log entry 5), for states no run reaches: BIT_LOW with BITCOUNT >= 40 runs as R122 says, with a
free value as FRAME, since 39 - BITCOUNT names no bit. It holds whatever that value is. -/
def Obligations.BitLowBeyondTheFrameLeavesFrameFree : Prop :=
  ∀ s : State, 40 ≤ s.bitcount.toNat → exec .bitLow s = .next
    (if s.sample.lineIn = false then
      { s with
        frame := Config.freeFrame s.bitcount s.frame (decide (45 < (s.sample.usNow - s.t0).toNat))
        bitcount := s.bitcount + 1
        t0 := s.sample.usNow
        state := .bitHigh
        done := false }
    else if 100 < (s.sample.usNow - s.t0).toNat then
      { s with outcome := .timeoutBit, state := .idle, done := true }
    else { s with done := false })

/-- R150, R160: VALIDATE. B_k = FRAME[39-8k : 32-8k]; the checksum is the sum modulo 256 over exact integers. -/
def Obligations.ValidateChecksAndPublishes : Prop :=
  ∀ s : State, exec .validate s = .next
    (if ((s.frame.extractLsb' 32 8).toNat + (s.frame.extractLsb' 24 8).toNat + (s.frame.extractLsb' 16 8).toNat +
        (s.frame.extractLsb' 8 8).toNat) % 256 = (s.frame.extractLsb' 0 8).toNat then
      { s with
        valid := true, humR := s.frame.extractLsb' 24 16, tempR := s.frame.extractLsb' 8 16,
        tempX10R := tempX10 (s.frame.extractLsb' 8 16), outcome := .success, state := .idle, done := true }
    else { s with outcome := .checksumMismatch, state := .idle, done := true })

/-! ## Steps and encodings -/

/-- R89: which operation each combination of (rst, STATE, cmd) selects; a step is the selected operation, after which
the next sample comes up (log entry 1). -/
def Obligations.StepRunsSelectedOperation : Prop :=
  (∀ (q : FsmState) (c : BitVec 2), decodeStep true q c = .rst) ∧
  (∀ c : BitVec 2, decodeStep false .idle c = decodeCmd c) ∧
  (∀ (q : FsmState) (c : BitVec 2), q ≠ .idle → decodeStep false q c = instrOfState q) ∧
  (∀ s t : State, s.acquireDuty → exec (decodeStep s.sample.rst s.state s.sample.cmd) s = .next t →
    step s = .next { t with samples := t.samples.tail, tick := t.tick + 1 })

/-- R81, R85 and the RST row: words written out from the spec's tables decode to their operations. -/
def Obligations.TableWordsDecode : Prop :=
  decode ⟨.rst, 0b1⟩ = .ok .rst ∧ decode ⟨.cmd, 0b00⟩ = .ok .nop ∧ decode ⟨.cmd, 0b01⟩ = .ok .acquire ∧
  decode ⟨.cmd, 0b10⟩ = .ok .reservedCmd2 ∧ decode ⟨.cmd, 0b11⟩ = .ok .reservedCmd3 ∧
  decode ⟨.state, 0b000⟩ = .ok .idle ∧ decode ⟨.state, 0b001⟩ = .ok .startLow ∧
  decode ⟨.state, 0b010⟩ = .ok .startHigh ∧ decode ⟨.state, 0b011⟩ = .ok .hsLow ∧
  decode ⟨.state, 0b100⟩ = .ok .hsHigh ∧ decode ⟨.state, 0b101⟩ = .ok .bitHigh ∧
  decode ⟨.state, 0b110⟩ = .ok .bitLow ∧ decode ⟨.state, 0b111⟩ = .ok .validate

/-- Decoding and encoding are inverse: every instruction's word decodes to it, a word decodes to an instruction only if
it is that instruction's word, and the refused words are those too wide for their format and `rst = 0`. -/
def Obligations.DecodeAndEncodeAreInverse : Prop :=
  (∀ i : Instr, decode (encode i) = .ok i) ∧
  (∀ (w : TableWord) (i : Instr), decode w = .ok i → encode i = w) ∧
  (∀ w : TableWord, (∃ e, decode w = .error e) ↔ 2 ^ w.format.width ≤ w.bits ∨ w = ⟨.rst, 0⟩)

/-- R38, R39: the packed status word, field by field, and the ports as copies. -/
def Obligations.StatusAndPortsCopyRegisters : Prop :=
  ∀ s : State,
    s.status.getLsbD 0 = decide (s.state ≠ .idle) ∧ s.status.getLsbD 1 = s.done ∧ s.status.getLsbD 2 = s.valid ∧
    s.status.extractLsb' 3 3 = s.outcome.code ∧ s.status.extractLsb' 6 3 = s.state.code ∧
    s.status.extractLsb' 9 6 = s.bitcount ∧ s.status.getLsbD 15 = false ∧
    s.ports = ⟨s.lineOe, s.lineOut, s.status, s.humR, s.tempR, s.tempX10R⟩

/-! ## Rules of the whole machine -/

/-- R140: STATE moves only along the table's edges, and leaves for IDLE only with the row's outcome. -/
def Obligations.StateMovesAlongTableEdges : Prop :=
  ∀ s t : State, s.acquireDuty → step s = .next t →
    (s.sample.rst = true → t.state = .idle) ∧
    (s.sample.rst = false → t.state ∈ successors s.state ∧
      (s.state = .idle → t.state = .startLow → s.sample.cmd = 0b01) ∧
      (s.state = .hsLow → t.state = .idle → t.outcome = .timeoutHsLow) ∧
      (s.state = .hsHigh → t.state = .idle → t.outcome = .timeoutHsHigh) ∧
      (s.state = .bitHigh ∨ s.state = .bitLow → t.state = .idle → t.outcome = .timeoutBit) ∧
      (s.state = .bitLow → s.bitcount.toNat = 39 → t.state ≠ .bitHigh) ∧
      (s.state = .bitLow → t.state = .validate → s.bitcount.toNat = 39) ∧
      (s.state = .validate → t.outcome = .success ∨ t.outcome = .checksumMismatch))

/-- R23's last column: which operations write each register, the IDLE row standing for the ACQUIRE it accepts; DONE is
set by `finish` only and cleared by every other operation (R32). That the samples and the step counter stay is the
model's own (log entry 1). -/
def Obligations.RegistersHaveOnlyTheirWriters : Prop :=
  ∀ (i : Instr) (s t : State), exec i s = .next t →
    (t.state ≠ s.state → i ∈ [Instr.rst, .acquire, .idle, .startLow, .startHigh, .hsLow, .hsHigh, .bitHigh, .bitLow,
      .validate]) ∧
    (t.done = true → i ∈ [Instr.hsLow, .hsHigh, .bitHigh, .bitLow, .validate]) ∧
    (t.frame ≠ s.frame → i ∈ [Instr.rst, .acquire, .idle, .bitLow]) ∧
    (t.bitcount ≠ s.bitcount → i ∈ [Instr.rst, .acquire, .idle, .bitLow]) ∧
    (t.t0 ≠ s.t0 → i ∈ [Instr.rst, .acquire, .idle, .startLow, .startHigh, .hsLow, .hsHigh, .bitHigh, .bitLow]) ∧
    (t.outcome ≠ s.outcome → i ∈ [Instr.rst, .acquire, .idle, .hsLow, .hsHigh, .bitHigh, .bitLow, .validate]) ∧
    (t.valid ≠ s.valid → i ∈ [Instr.rst, .acquire, .idle, .validate]) ∧
    (t.lineOe ≠ s.lineOe → i ∈ [Instr.rst, .acquire, .idle, .startHigh]) ∧
    (t.lineOut ≠ s.lineOut → i ∈ [Instr.rst, .acquire, .idle, .startLow]) ∧
    (t.humR ≠ s.humR ∨ t.tempR ≠ s.tempR ∨ t.tempX10R ≠ s.tempX10R →
      i ∈ [Instr.rst, .acquire, .idle, .validate]) ∧
    t.samples = s.samples ∧ t.tick = s.tick

/-- R105: a step that moves STATE into a hold or wait state writes T0 <- t. -/
def Obligations.EnteringTimedStateLatchesTime : Prop :=
  ∀ s t : State, s.acquireDuty → step s = .next t → t.state ≠ s.state →
    timed t.state = true → t.t0 = s.sample.usNow

/-- R106, R108: a step without reset that stays in its hold or wait state changes no register but DONE, which it clears
(R32), so T0 and the drive are constant throughout the operation. -/
def Obligations.StayingInTimedStateChangesNothing : Prop :=
  ∀ s t : State, s.acquireDuty → step s = .next t → s.sample.rst = false → timed s.state = true →
    t.state = s.state → t = { s with done := false, samples := s.samples.tail, tick := s.tick + 1 }

/-- R104: in a wait state the level test comes first, so a sample at the target level is a success however late. -/
def Obligations.TargetLevelSucceedsHoweverLate : Prop :=
  ∀ (s : State) (l : Bool) (o : OutcomeCode), s.acquireDuty → awaited s.state = some (l, o) →
    s.sample.rst = false → s.sample.lineIn = l → ∃ t, step s = .next t ∧ t.state ≠ s.state ∧ t.state ≠ .idle ∧
      t.done = false ∧ t.outcome = s.outcome

/-- R63: the line level is read only in HS_LOW, HS_HIGH, BIT_HIGH and BIT_LOW. -/
def Obligations.LineIgnoredOutsideWaits : Prop :=
  ∀ (s : State) (x : Sample) (xs : List Sample) (l : Bool), readsLine s.state = false →
    State.acquireDuty { s with samples := x :: xs } →
    step { s with samples := x :: xs } = step { s with samples := { x with lineIn := l } :: xs }

/-- R143 as far as R234 lets a claim rely on it: outside IDLE, `cmd` has no effect on a host that sends no ACQUIRE there
(log entry 7); in a reset step any `cmd` has none. -/
def Obligations.CommandIgnoredOutsideIdle : Prop :=
  ∀ (s : State) (x : Sample) (xs : List Sample) (c : BitVec 2), s.state ≠ .idle →
    State.acquireDuty { s with samples := x :: xs } →
    State.acquireDuty { s with samples := { x with cmd := c } :: xs } →
    step { s with samples := x :: xs } = step { s with samples := { x with cmd := c } :: xs }

/-- R41: VALID, DONE and OUTCOME do not affect sequencing, nor do the reading words. -/
def Obligations.FlagsDoNotAffectSequencing : Prop :=
  ∀ (s t : State) (o : OutcomeCode) (v d : Bool) (h p x : Half), s.acquireDuty → step s = .next t →
    ∃ u, step { s with outcome := o, valid := v, done := d, humR := h, tempR := p, tempX10R := x } = .next u ∧
      u.state = t.state ∧ u.frame = t.frame ∧ u.bitcount = t.bitcount ∧ u.t0 = t.t0 ∧
      u.lineOe = t.lineOe ∧ u.lineOut = t.lineOut

/-- R32: DONE becomes 1 exactly in a step that finishes an acquisition, and so is 1 for one step. -/
def Obligations.DoneIsOneStepPulse : Prop :=
  (∀ s t : State, s.acquireDuty → step s = .next t →
    (t.done = true ↔ s.sample.rst = false ∧ s.state ≠ .idle ∧ t.state = .idle)) ∧
  (∀ s t : State, s.acquireDuty → s.Inv → step s = .next t → s.done = true → t.done = false)

/-- Every step of a running acquisition that does not stay lowers the number of phases left: no state is entered again
except BIT_HIGH and BIT_LOW for the next bit (R151), and an acquisition has at most 85 phases (R241). -/
def Obligations.AcquisitionNeverReturnsToEarlierPhase : Prop :=
  ∀ s t : State, s.acquireDuty → s.Inv → step s = .next t → s.sample.rst = false → s.state ≠ .idle →
    (t.state = s.state ∧ t.bitcount = s.bitcount) ∨
    phasesLeft t.state t.bitcount.toNat < phasesLeft s.state s.bitcount.toNat

/-! ## Invariants -/

/-- The reset state meets R45, records no outcome, and shows the reset values of R43 on its ports. -/
def Obligations.ResetMeetsInvariant : Prop :=
  State.reset.Inv ∧ State.reset.Recorded ∧ State.reset.ports = ⟨false, true, 0x0000, 0, 0, 0⟩

/-- R45: every step keeps the invariants, from every state that has them. -/
def Obligations.StepKeepsInvariant : Prop :=
  ∀ s t : State, s.acquireDuty → s.Inv → step s = .next t → t.Inv

/-- R200, R31, R35 to R37: what an outcome records stays true at every step. -/
def Obligations.StepKeepsOutcomeRecord : Prop :=
  ∀ s t : State, s.acquireDuty → s.Inv → s.Recorded → step s = .next t → t.Recorded

/-- R215: after any outcome other than SUCCESS there is no reading. -/
def Obligations.FailureYieldsNoReading : Prop :=
  ∀ s t : State, s.acquireDuty → s.Inv → step s = .next t → t.outcome ≠ .success →
    t.valid = false ∧ t.humR = 0 ∧ t.tempR = 0 ∧ t.tempX10R = 0

/-- R216: two blocks in IDLE with any two pasts behave alike for ever from an accepted ACQUIRE on. -/
def Obligations.AcquisitionsAreIndependent : Prop :=
  ∀ (s u : State) (n : Nat), s.state = .idle → u.state = .idle → s.samples = u.samples → s.tick = u.tick →
    s.sample.rst = false → s.sample.cmd = 0b01 → s.keepsDuty (n + 1) → run (n + 1) s = run (n + 1) u

/-! ## Time -/

/-- R101: under R100 the 32-bit difference is the true elapsed time, across a wrap too. -/
def Obligations.ElapsedIsTrueTime : Prop :=
  ∀ τj τk : Nat, τj ≤ τk → τk - τj < 2 ^ 32 →
    (elapsed (BitVec.ofNat 32 τj) (BitVec.ofNat 32 τk)).toNat = τk - τj

/-- R102: a hold stays while elapsed < D and ends at the first sample with elapsed >= D, whatever the schedule. -/
def Obligations.HoldEndsAtFirstDueSample : Prop :=
  ∀ (s : State) (xs : List Sample) (x : Sample) (rest : List Sample) (d : Nat),
    (s.state = .startLow ∧ d = 20000) ∨ (s.state = .startHigh ∧ d = 30) →
    s.samples = xs ++ x :: rest → holds s.t0 d xs → x.rst = false → d ≤ (x.usNow - s.t0).toNat →
    s.keepsDuty (xs.length + 1) →
    (∀ k ≤ xs.length, ∃ t, run k s = .next t ∧ t.state = s.state ∧ t.t0 = s.t0) ∧
    ∃ t, run (xs.length + 1) s = .next t ∧ t.t0 = x.usNow ∧ t.samples = rest ∧
      t.state = (if s.state = .startLow then .startHigh else .hsLow)

/-- R103, R107: a wait whose polls never show its level stays while elapsed <= 100 and ends with its own outcome at the
first sample with elapsed > 100. -/
def Obligations.WaitTimesOutAtFirstLateSample : Prop :=
  ∀ (s : State) (l : Bool) (o : OutcomeCode) (xs : List Sample) (x : Sample) (rest : List Sample),
    awaited s.state = some (l, o) → s.samples = xs ++ x :: rest → polls (!l) s.t0 100 xs → edge (!l) x →
    100 < (x.usNow - s.t0).toNat → s.keepsDuty (xs.length + 1) →
    (∀ k ≤ xs.length, ∃ t, run k s = .next t ∧ t.state = s.state) ∧
    run (xs.length + 1) s = .next
      { s with
        outcome := o, state := .idle, done := true, samples := rest, tick := s.tick + (xs.length + 1) }

/-- R241, with its sample spacing Δ as `d` (R240; 1 under the premise R237): counted from the accepted ACQUIRE (sample 0
at true time τ 0), an acquisition has finished with an outcome once a sample at or past 20000 + 30 + 2·100 + 40·200 us
plus 84 sample spacings, and the VALIDATE step, have been taken. -/
def Obligations.AcquisitionEndsWithinBound : Prop :=
  ∀ (s : State) (τ : Nat → Nat) (d n : Nat), s.state = .idle → s.sample.cmd = 0b01 →
    Schedule τ s.samples → spacedBy d τ → d + 20000 < 2 ^ 32 → (∀ x ∈ s.samples, x.rst = false) →
    n + 2 ≤ s.samples.length → τ 0 + 28230 + 84 * d ≤ τ n → s.keepsDuty (n + 2) →
    ∃ k t, 1 ≤ k ∧ k ≤ n + 2 ∧ run k s = .next t ∧ t.state = .idle ∧ t.outcome ≠ .none ∧ t.done = true

/-! ## The frame and the reading -/

/-- R124: bit i goes to FRAME[39 - i], which is position 7 - i mod 8 of byte i div 8; no other bit changes. -/
def Obligations.BitGoesToItsBytePosition : Prop :=
  ∀ (s t : State) (j : Nat), s.bitcount.toNat ≤ 39 → s.sample.lineIn = false → exec .bitLow s = .next t → j ≤ 39 →
    t.frame.getLsbD (39 - j) =
      (s.frame.getLsbD (39 - j) ||
        (decide (j = s.bitcount.toNat) && decide (45 < (s.sample.usNow - s.t0).toNat))) ∧
    (frameByte t.frame (j / 8)).getLsbD (7 - j % 8) = t.frame.getLsbD (39 - j)

/-- R160: the checksum test is the sum of B0 to B3 modulo 256 against B4, with exact integers. -/
def Obligations.ChecksumIsSumModulo256 : Prop :=
  ∀ b0 b1 b2 b3 b4 : BitVec 8,
    checksumOk (b0 ++ b1 ++ b2 ++ b3 ++ b4) = true ↔ (b0.toNat + b1.toNat + b2.toNat + b3.toNat) % 256 = b4.toNat

/-- R161: the checksum cannot tell the order of B0 to B3. -/
def Obligations.ChecksumIgnoresByteOrder : Prop :=
  ∀ b0 b1 b2 b3 c0 c1 c2 c3 b4 : BitVec 8, [b0, b1, b2, b3].Perm [c0, c1, c2, c3] →
    checksumOk (b0 ++ b1 ++ b2 ++ b3 ++ b4) = checksumOk (c0 ++ c1 ++ c2 ++ c3 ++ b4)

/-- R182, R183: TEMP_X10_R is the two's complement of the signed magnitude; 0x8000 is never produced. -/
def Obligations.TenthsAreSignedMagnitude : Prop :=
  ∀ w : Half,
    (tempX10 w).toInt = (if w.getLsbD 15 then -((w.toNat % 2 ^ 15 : Nat) : Int) else ((w.toNat % 2 ^ 15 : Nat) : Int)) ∧
    tempX10 w ≠ 0x8000

/-- R180 to R182: wherever TEMP_X10_R is the encoding of TEMP_R, the exact temperature is TEMP_X10_R / 10, and the exact
humidity is HUM_R / 10. -/
def Obligations.WordsGiveExactReading : Prop :=
  ∀ s : State, s.tempX10R = tempX10 s.tempR →
    s.reading.humidity * 10 = (s.humR.toNat : ℚ) ∧ s.reading.temperature * 10 = (s.tempX10R.toInt : ℚ)

/-- R66, R149, R150: from BIT_HIGH with nothing read, forty pulses in time, whatever their polls, are FRAME, first bit at
the top, and the step after them is the checksum's verdict. -/
def Obligations.FortyPulsesAreTheFrame : Prop :=
  ∀ (s : State) (ps : List Pulse) (v : Sample) (rest : List Sample),
    s.state = .bitHigh → s.bitcount = 0 → s.frame = 0 → ps.length = 40 → pulsesInTime s.t0 ps → v.rst = false →
    s.samples = ps.flatMap Pulse.samples ++ v :: rest → s.keepsDuty ((ps.flatMap Pulse.samples).length + 1) →
    let n := (ps.flatMap Pulse.samples).length + 1
    let f := frameOfBits (ps.map Pulse.bit)
    run n s = .next
      (if checksumOk f then
        { s with
          state := .idle, frame := f, bitcount := 40, t0 := lastFall s.t0 ps, outcome := .success, valid := true,
          done := true, humR := humidityWord f, tempR := temperatureWord f,
          tempX10R := tempX10 (temperatureWord f), samples := rest, tick := s.tick + n }
      else
        { s with
          state := .idle, frame := f, bitcount := 40, t0 := lastFall s.t0 ps, outcome := .checksumMismatch,
          done := true, samples := rest, tick := s.tick + n })

/-- R142 to R150, R180 to R182, R206: a whole acquisition. From any IDLE state, every waveform in which each phase
completes in time ends in IDLE with DONE, the line released, the frame read, and the reading published exactly if the
checksum matches. The frame's bits are those the machine reads, first_bit_align being false (log entry 10). -/
def Obligations.AcquisitionDeliversReading : Prop :=
  ∀ (s : State) (w : Waveform) (rest : List Sample), s.state = .idle → w.InTime → s.samples = w.samples ++ rest →
    s.keepsDuty w.samples.length →
    let f := frameOfBits (w.pulses.map Pulse.bit)
    ∃ t, run w.samples.length s = .next t ∧ t.samples = rest ∧ t.state = .idle ∧ t.done = true ∧
      t.lineOe = false ∧ t.lineOut = true ∧ t.frame = f ∧ t.bitcount = 40 ∧
      (if checksumOk f then
        t.outcome = .success ∧ t.valid = true ∧ t.humR = humidityWord f ∧ t.tempR = temperatureWord f ∧
          t.tempX10R = tempX10 (temperatureWord f)
      else
        t.outcome = .checksumMismatch ∧ t.valid = false ∧ t.humR = 0 ∧ t.tempR = 0 ∧ t.tempX10R = 0)

/-- R127: with one sample per microsecond and a handshake high of H us, 2 <= H <= 102, bit 0 measures H - 1 us, the tail
of the handshake high; `c` is any command but ACQUIRE (R234). -/
def Obligations.FirstBitMeasuresHandshakeHigh : Prop :=
  ∀ (s : State) (r : Time) (H : Nat) (c : Nat → BitVec 2) (rest : List Sample), 2 ≤ H → H ≤ 102 →
    s.state = .hsHigh → s.bitcount = 0 → s.frame = 0 →
    s.samples = (List.range (H + 1)).map (fun k => ⟨false, c k, r + BitVec.ofNat 32 k, decide (k < H)⟩) ++ rest →
    s.keepsDuty (H + 1) →
    ∃ t, run (H + 1) s = .next t ∧ t.state = .bitHigh ∧ t.bitcount = 1 ∧ t.t0 = r + BitVec.ofNat 32 H ∧
      t.samples = rest ∧ t.frame = (if 45 < H - 1 then BitVec.twoPow 40 39 else 0)

/-! ## The variant machine -/

/-- With the spec's parameters the variant machine is the machine (R7, 92 D4, D5, D8; log entries 9 and 10). -/
def Obligations.VariantAtSpecParamsIsTheMachine : Prop :=
  ∀ s t : State, s.acquireDuty → (step s = .next t ↔ variantStep Config.specParams ⟨s, false⟩ = ⟨t, false⟩)

/-- The invariants of R45 hold under every hold time and under both values of `first_bit_align` (92 D8: "Claims that hold
for both values of the parameter are safe"; log entries 9 and 10). -/
def Obligations.VariantStepKeepsInvariant : Prop :=
  ∀ (p : Config.Params) (v : VariantState), v.block.acquireDuty → v.block.Inv → (variantStep p v).block.Inv

/-- R7: under every parameter in the source's range the low hold lasts at least 18000 us and the high hold 20 us. -/
def Obligations.VariantHoldsLastSourceMinimum : Prop :=
  ∀ (p : Config.Params) (v : VariantState), p.wellFormed = true → v.block.acquireDuty →
    v.block.sample.rst = false →
    (v.block.state = .startLow → (v.block.sample.usNow - v.block.t0).toNat < 18000 →
      (variantStep p v).block.state = .startLow ∧ (variantStep p v).block.lineOut = v.block.lineOut) ∧
    (v.block.state = .startHigh → (v.block.sample.usNow - v.block.t0).toNat < 20 →
      (variantStep p v).block.state = .startHigh ∧ (variantStep p v).block.lineOe = v.block.lineOe)

/-! ## Termination -/

/-- R242: under weak fairness of time alone, with no bound on the sample spacing, an accepted ACQUIRE that no reset
abandons ends with an outcome. -/
def Obligations.AcquisitionEndsUnderFairTime : Prop :=
  ∀ (s : State) (τ : Nat → Nat) (x : Nat → Sample), s.state = .idle → (x 0).cmd = 0b01 →
    (∀ k, (x k).rst = false) → FairTime τ x → PollsWithinWrap τ x s → keepsDutyOn x s →
    ∃ k t, 1 ≤ k ∧ runOn x k s = .next t ∧ t.state = .idle ∧ t.outcome ≠ .none ∧ t.done = true

/-- R242: under weak fairness of time, whatever the commands and resets, no state is occupied for ever, except IDLE
while no ACQUIRE arrives that a reset does not override. -/
def Obligations.NoStateIsOccupiedForEver : Prop :=
  ∀ (s : State) (τ : Nat → Nat) (x : Nat → Sample), s.state = .idle → FairTime τ x →
    PollsWithinWrap τ x s → keepsDutyOn x s →
    ∀ (n : Nat) (q : FsmState), (∀ k, n ≤ k → ∃ t, runOn x k s = .next t ∧ t.state = q) →
      q = .idle ∧ ∀ k, n ≤ k → (x k).rst = true ∨ (x k).cmd ≠ 0b01

/-! ## The codes on the status port -/

/-- R85, R86 (and R38 for the places): the STATE code in `status[8:6]` and the OUTCOME code in `status[5:3]`, each name
with the code of the spec's table. -/
def Obligations.StatusShowsTableCodes : Prop :=
  ∀ s : State,
    s.status.extractLsb' 6 3 =
      (match s.state with
        | .idle      => 0b000
        | .startLow  => 0b001
        | .startHigh => 0b010
        | .hsLow     => 0b011
        | .hsHigh    => 0b100
        | .bitHigh   => 0b101
        | .bitLow    => 0b110
        | .validate  => 0b111) ∧
    s.status.extractLsb' 3 3 =
      (match s.outcome with
        | .none             => 0b000
        | .success          => 0b001
        | .checksumMismatch => 0b010
        | .timeoutHsLow     => 0b011
        | .timeoutHsHigh    => 0b100
        | .timeoutBit       => 0b101)
end

