-- ==== Sys2Proof/Laws/State.lean ====
section
/-! SUPPORT. One lemma per field per register update, true by definition, so that no later proof unfolds a record
update. -/

namespace Sys2Proof.Machine

/-! drive -/

@[simp] theorem State.drive_state (oe v : Bool) (s : State) : (s.drive oe v).state = s.state := rfl
@[simp] theorem State.drive_frame (oe v : Bool) (s : State) : (s.drive oe v).frame = s.frame := rfl
@[simp] theorem State.drive_bitcount (oe v : Bool) (s : State) : (s.drive oe v).bitcount = s.bitcount := rfl
@[simp] theorem State.drive_t0 (oe v : Bool) (s : State) : (s.drive oe v).t0 = s.t0 := rfl
@[simp] theorem State.drive_outcome (oe v : Bool) (s : State) : (s.drive oe v).outcome = s.outcome := rfl
@[simp] theorem State.drive_valid (oe v : Bool) (s : State) : (s.drive oe v).valid = s.valid := rfl
@[simp] theorem State.drive_done (oe v : Bool) (s : State) : (s.drive oe v).done = s.done := rfl
@[simp] theorem State.drive_lineOe (oe v : Bool) (s : State) : (s.drive oe v).lineOe = oe := rfl
@[simp] theorem State.drive_lineOut (oe v : Bool) (s : State) : (s.drive oe v).lineOut = v := rfl
@[simp] theorem State.drive_humR (oe v : Bool) (s : State) : (s.drive oe v).humR = s.humR := rfl
@[simp] theorem State.drive_tempR (oe v : Bool) (s : State) : (s.drive oe v).tempR = s.tempR := rfl
@[simp] theorem State.drive_tempX10R (oe v : Bool) (s : State) : (s.drive oe v).tempX10R = s.tempX10R := rfl
@[simp] theorem State.drive_samples (oe v : Bool) (s : State) : (s.drive oe v).samples = s.samples := rfl
@[simp] theorem State.drive_tick (oe v : Bool) (s : State) : (s.drive oe v).tick = s.tick := rfl
@[simp] theorem State.drive_sample (oe v : Bool) (s : State) : (s.drive oe v).sample = s.sample := rfl
@[simp] theorem State.drive_now (oe v : Bool) (s : State) : (s.drive oe v).now = s.now := rfl
@[simp] theorem State.drive_level (oe v : Bool) (s : State) : (s.drive oe v).level = s.level := rfl
@[simp] theorem State.drive_elapsedUs (oe v : Bool) (s : State) : (s.drive oe v).elapsedUs = s.elapsedUs := rfl

/-! release -/

@[simp] theorem State.release_state (s : State) : (s.release).state = s.state := rfl
@[simp] theorem State.release_frame (s : State) : (s.release).frame = s.frame := rfl
@[simp] theorem State.release_bitcount (s : State) : (s.release).bitcount = s.bitcount := rfl
@[simp] theorem State.release_t0 (s : State) : (s.release).t0 = s.t0 := rfl
@[simp] theorem State.release_outcome (s : State) : (s.release).outcome = s.outcome := rfl
@[simp] theorem State.release_valid (s : State) : (s.release).valid = s.valid := rfl
@[simp] theorem State.release_done (s : State) : (s.release).done = s.done := rfl
@[simp] theorem State.release_lineOe (s : State) : (s.release).lineOe = false := rfl
@[simp] theorem State.release_lineOut (s : State) : (s.release).lineOut = s.lineOut := rfl
@[simp] theorem State.release_humR (s : State) : (s.release).humR = s.humR := rfl
@[simp] theorem State.release_tempR (s : State) : (s.release).tempR = s.tempR := rfl
@[simp] theorem State.release_tempX10R (s : State) : (s.release).tempX10R = s.tempX10R := rfl
@[simp] theorem State.release_samples (s : State) : (s.release).samples = s.samples := rfl
@[simp] theorem State.release_tick (s : State) : (s.release).tick = s.tick := rfl
@[simp] theorem State.release_sample (s : State) : (s.release).sample = s.sample := rfl
@[simp] theorem State.release_now (s : State) : (s.release).now = s.now := rfl
@[simp] theorem State.release_level (s : State) : (s.release).level = s.level := rfl
@[simp] theorem State.release_elapsedUs (s : State) : (s.release).elapsedUs = s.elapsedUs := rfl

/-! clearDone -/

@[simp] theorem State.clearDone_state (s : State) : (s.clearDone).state = s.state := rfl
@[simp] theorem State.clearDone_frame (s : State) : (s.clearDone).frame = s.frame := rfl
@[simp] theorem State.clearDone_bitcount (s : State) : (s.clearDone).bitcount = s.bitcount := rfl
@[simp] theorem State.clearDone_t0 (s : State) : (s.clearDone).t0 = s.t0 := rfl
@[simp] theorem State.clearDone_outcome (s : State) : (s.clearDone).outcome = s.outcome := rfl
@[simp] theorem State.clearDone_valid (s : State) : (s.clearDone).valid = s.valid := rfl
@[simp] theorem State.clearDone_done (s : State) : (s.clearDone).done = false := rfl
@[simp] theorem State.clearDone_lineOe (s : State) : (s.clearDone).lineOe = s.lineOe := rfl
@[simp] theorem State.clearDone_lineOut (s : State) : (s.clearDone).lineOut = s.lineOut := rfl
@[simp] theorem State.clearDone_humR (s : State) : (s.clearDone).humR = s.humR := rfl
@[simp] theorem State.clearDone_tempR (s : State) : (s.clearDone).tempR = s.tempR := rfl
@[simp] theorem State.clearDone_tempX10R (s : State) : (s.clearDone).tempX10R = s.tempX10R := rfl
@[simp] theorem State.clearDone_samples (s : State) : (s.clearDone).samples = s.samples := rfl
@[simp] theorem State.clearDone_tick (s : State) : (s.clearDone).tick = s.tick := rfl
@[simp] theorem State.clearDone_sample (s : State) : (s.clearDone).sample = s.sample := rfl
@[simp] theorem State.clearDone_now (s : State) : (s.clearDone).now = s.now := rfl
@[simp] theorem State.clearDone_level (s : State) : (s.clearDone).level = s.level := rfl
@[simp] theorem State.clearDone_elapsedUs (s : State) : (s.clearDone).elapsedUs = s.elapsedUs := rfl

/-! finish -/

@[simp] theorem State.finish_state (o : OutcomeCode) (s : State) : (s.finish o).state = FsmState.idle := rfl
@[simp] theorem State.finish_frame (o : OutcomeCode) (s : State) : (s.finish o).frame = s.frame := rfl
@[simp] theorem State.finish_bitcount (o : OutcomeCode) (s : State) :
    (s.finish o).bitcount = s.bitcount := rfl
@[simp] theorem State.finish_t0 (o : OutcomeCode) (s : State) : (s.finish o).t0 = s.t0 := rfl
@[simp] theorem State.finish_outcome (o : OutcomeCode) (s : State) : (s.finish o).outcome = o := rfl
@[simp] theorem State.finish_valid (o : OutcomeCode) (s : State) : (s.finish o).valid = s.valid := rfl
@[simp] theorem State.finish_done (o : OutcomeCode) (s : State) : (s.finish o).done = true := rfl
@[simp] theorem State.finish_lineOe (o : OutcomeCode) (s : State) : (s.finish o).lineOe = s.lineOe := rfl
@[simp] theorem State.finish_lineOut (o : OutcomeCode) (s : State) : (s.finish o).lineOut = s.lineOut := rfl
@[simp] theorem State.finish_humR (o : OutcomeCode) (s : State) : (s.finish o).humR = s.humR := rfl
@[simp] theorem State.finish_tempR (o : OutcomeCode) (s : State) : (s.finish o).tempR = s.tempR := rfl
@[simp] theorem State.finish_tempX10R (o : OutcomeCode) (s : State) :
    (s.finish o).tempX10R = s.tempX10R := rfl
@[simp] theorem State.finish_samples (o : OutcomeCode) (s : State) : (s.finish o).samples = s.samples := rfl
@[simp] theorem State.finish_tick (o : OutcomeCode) (s : State) : (s.finish o).tick = s.tick := rfl
@[simp] theorem State.finish_sample (o : OutcomeCode) (s : State) : (s.finish o).sample = s.sample := rfl
@[simp] theorem State.finish_now (o : OutcomeCode) (s : State) : (s.finish o).now = s.now := rfl
@[simp] theorem State.finish_level (o : OutcomeCode) (s : State) : (s.finish o).level = s.level := rfl
@[simp] theorem State.finish_elapsedUs (o : OutcomeCode) (s : State) : (s.finish o).elapsedUs = s.elapsedUs := rfl

/-! enter -/

@[simp] theorem State.enter_state (st : FsmState) (s : State) : (s.enter st).state = st := rfl
@[simp] theorem State.enter_frame (st : FsmState) (s : State) : (s.enter st).frame = s.frame := rfl
@[simp] theorem State.enter_bitcount (st : FsmState) (s : State) : (s.enter st).bitcount = s.bitcount := rfl
@[simp] theorem State.enter_t0 (st : FsmState) (s : State) : (s.enter st).t0 = s.now := rfl
@[simp] theorem State.enter_outcome (st : FsmState) (s : State) : (s.enter st).outcome = s.outcome := rfl
@[simp] theorem State.enter_valid (st : FsmState) (s : State) : (s.enter st).valid = s.valid := rfl
@[simp] theorem State.enter_done (st : FsmState) (s : State) : (s.enter st).done = false := rfl
@[simp] theorem State.enter_lineOe (st : FsmState) (s : State) : (s.enter st).lineOe = s.lineOe := rfl
@[simp] theorem State.enter_lineOut (st : FsmState) (s : State) : (s.enter st).lineOut = s.lineOut := rfl
@[simp] theorem State.enter_humR (st : FsmState) (s : State) : (s.enter st).humR = s.humR := rfl
@[simp] theorem State.enter_tempR (st : FsmState) (s : State) : (s.enter st).tempR = s.tempR := rfl
@[simp] theorem State.enter_tempX10R (st : FsmState) (s : State) : (s.enter st).tempX10R = s.tempX10R := rfl
@[simp] theorem State.enter_samples (st : FsmState) (s : State) : (s.enter st).samples = s.samples := rfl
@[simp] theorem State.enter_tick (st : FsmState) (s : State) : (s.enter st).tick = s.tick := rfl
@[simp] theorem State.enter_sample (st : FsmState) (s : State) : (s.enter st).sample = s.sample := rfl
@[simp] theorem State.enter_now (st : FsmState) (s : State) : (s.enter st).now = s.now := rfl
@[simp] theorem State.enter_level (st : FsmState) (s : State) : (s.enter st).level = s.level := rfl

/-! publish -/

@[simp] theorem State.publish_state (s : State) : (s.publish).state = s.state := rfl
@[simp] theorem State.publish_frame (s : State) : (s.publish).frame = s.frame := rfl
@[simp] theorem State.publish_bitcount (s : State) : (s.publish).bitcount = s.bitcount := rfl
@[simp] theorem State.publish_t0 (s : State) : (s.publish).t0 = s.t0 := rfl
@[simp] theorem State.publish_outcome (s : State) : (s.publish).outcome = s.outcome := rfl
@[simp] theorem State.publish_valid (s : State) : (s.publish).valid = true := rfl
@[simp] theorem State.publish_done (s : State) : (s.publish).done = s.done := rfl
@[simp] theorem State.publish_lineOe (s : State) : (s.publish).lineOe = s.lineOe := rfl
@[simp] theorem State.publish_lineOut (s : State) : (s.publish).lineOut = s.lineOut := rfl
@[simp] theorem State.publish_humR (s : State) : (s.publish).humR = humidityWord s.frame := rfl
@[simp] theorem State.publish_tempR (s : State) : (s.publish).tempR = temperatureWord s.frame := rfl
@[simp] theorem State.publish_tempX10R (s : State) :
    (s.publish).tempX10R = tempX10 (temperatureWord s.frame) := rfl
@[simp] theorem State.publish_samples (s : State) : (s.publish).samples = s.samples := rfl
@[simp] theorem State.publish_tick (s : State) : (s.publish).tick = s.tick := rfl
@[simp] theorem State.publish_sample (s : State) : (s.publish).sample = s.sample := rfl
@[simp] theorem State.publish_now (s : State) : (s.publish).now = s.now := rfl
@[simp] theorem State.publish_level (s : State) : (s.publish).level = s.level := rfl
@[simp] theorem State.publish_elapsedUs (s : State) : (s.publish).elapsedUs = s.elapsedUs := rfl

/-! advance -/

@[simp] theorem State.advance_state (s : State) : (s.advance).state = s.state := rfl
@[simp] theorem State.advance_frame (s : State) : (s.advance).frame = s.frame := rfl
@[simp] theorem State.advance_bitcount (s : State) : (s.advance).bitcount = s.bitcount := rfl
@[simp] theorem State.advance_t0 (s : State) : (s.advance).t0 = s.t0 := rfl
@[simp] theorem State.advance_outcome (s : State) : (s.advance).outcome = s.outcome := rfl
@[simp] theorem State.advance_valid (s : State) : (s.advance).valid = s.valid := rfl
@[simp] theorem State.advance_done (s : State) : (s.advance).done = s.done := rfl
@[simp] theorem State.advance_lineOe (s : State) : (s.advance).lineOe = s.lineOe := rfl
@[simp] theorem State.advance_lineOut (s : State) : (s.advance).lineOut = s.lineOut := rfl
@[simp] theorem State.advance_humR (s : State) : (s.advance).humR = s.humR := rfl
@[simp] theorem State.advance_tempR (s : State) : (s.advance).tempR = s.tempR := rfl
@[simp] theorem State.advance_tempX10R (s : State) : (s.advance).tempX10R = s.tempX10R := rfl
@[simp] theorem State.advance_samples (s : State) : (s.advance).samples = s.samples.tail := rfl
@[simp] theorem State.advance_tick (s : State) : (s.advance).tick = s.tick + 1 := rfl

/-- A placed sample is the one read (00_scope.md R12). -/
theorem State.sample_of_cons {s : State} {x : Sample} {xs : List Sample} (h : s.samples = x :: xs) :
    s.sample = x := by
  simp [State.sample, h]

@[simp] theorem State.sample_mk_cons {s : State} {x : Sample} {xs : List Sample} :
    State.sample { s with samples := x :: xs } = x := rfl

end Sys2Proof.Machine
end

