-- ==== Sys2Proof/Laws/Ops.lean ====
section
/-! SUPPORT. One lemma per shared operation saying everything it can do, which proofs cite instead of unfolding it. -/

namespace Sys2Proof.Machine

/-- A hold completes or stays (40_busy_wait.md R102). -/
theorem State.hold_cases (d : Nat) (complete : State → State) (s : State) :
    (d ≤ s.elapsedUs ∧ s.hold d complete = complete s) ∨
    (s.elapsedUs < d ∧ s.hold d complete = s.clearDone) := by
  unfold State.hold
  split
  · exact .inl ⟨‹_›, rfl⟩
  · exact .inr ⟨by omega, rfl⟩

/-- A level wait succeeds, times out or stays, in that order of tests (40_busy_wait.md R103, R104). -/
theorem State.waitLevel_cases (l : Bool) (limit : Nat) (o : OutcomeCode) (success : State → State) (s : State) :
    (s.level = l ∧ s.waitLevel l limit o success = success s) ∨
    (s.level = !l ∧ limit < s.elapsedUs ∧ s.waitLevel l limit o success = s.finish o) ∨
    (s.level = !l ∧ s.elapsedUs ≤ limit ∧ s.waitLevel l limit o success = s.clearDone) := by
  unfold State.waitLevel
  by_cases h : s.level = l
  · exact .inl ⟨h, by simp [h]⟩
  · have hl : s.level = !l := by cases hs : s.level <;> cases l <;> simp_all
    by_cases ht : limit < s.elapsedUs
    · exact .inr (.inl ⟨hl, ht, by simp [h, ht]⟩)
    · exact .inr (.inr ⟨hl, by omega, by simp [h, ht]⟩)

/-- VALIDATE publishes and finishes with SUCCESS, or finishes with CHECKSUM_MISMATCH (42_frame_reader.md R150). -/
theorem State.validateStep_cases (s : State) :
    (checksumOk s.frame = true ∧ s.validateStep = s.publish.finish .success) ∨
    (checksumOk s.frame = false ∧ s.validateStep = s.finish .checksumMismatch) := by
  unfold State.validateStep
  by_cases h : checksumOk s.frame = true <;> simp [h]

/-- The threshold of 41_bit_decoder.md R123. -/
theorem classifyBit_eq (e : Nat) : classifyBit e = decide (45 < e) := rfl

/-- In range, a 1 is OR-ed in at 39 - i and a 0 changes nothing (41_bit_decoder.md R122). -/
theorem placeBit_of_lt {i : BitVec 6} (hi : i.toNat < 40) (f : Frame) (b : Bool) :
    placeBit i f b = f ||| (if b then BitVec.twoPow 40 (39 - i.toNat) else 0) := by
  have hN : i.toNat < Config.N_BITS := hi
  have h39 : Config.N_BITS - 1 = 39 := rfl
  cases b <;> simp [placeBit, hN, h39, BitVec.twoPow]

/-- In range, the placed bit is OR-ed in and every other bit stays (41_bit_decoder.md R124). -/
theorem placeBit_getLsbD (i : BitVec 6) (f : Frame) (b : Bool) (hi : i.toNat < 40) (k : Nat) :
    (placeBit i f b).getLsbD k = (f.getLsbD k || (b && decide (k = 39 - i.toNat))) := by
  rw [placeBit_of_lt hi, BitVec.getLsbD_or]
  cases b
  · simp
  · simp only [if_true, BitVec.getLsbD_twoPow, Bool.true_and, show 39 - i.toNat < 40 by omega, decide_true]
    simp [eq_comm]

end Sys2Proof.Machine
end

