-- ==== Sys2Proof/Laws/PerInstr.lean ====
section
/-! SUPPORT. The family RoundTrip: each instruction is well formed, its word fits its format, and the word decodes to
it. One lemma per constructor. -/

namespace Sys2Proof.Laws.RoundTrip

/-- The instruction's word is well formed and decodes to the instruction. -/
def Statement (i : Instr) : Prop :=
  i.wellFormed = true ∧ (encode i).wellFormed = true ∧ (decode (encode i)).toOption = some i

theorem rst : Statement .rst := by refine ⟨?_, ?_, ?_⟩ <;> decide
theorem nop : Statement .nop := by refine ⟨?_, ?_, ?_⟩ <;> decide
theorem acquire : Statement .acquire := by refine ⟨?_, ?_, ?_⟩ <;> decide
theorem reservedCmd2 : Statement .reservedCmd2 := by refine ⟨?_, ?_, ?_⟩ <;> decide
theorem reservedCmd3 : Statement .reservedCmd3 := by refine ⟨?_, ?_, ?_⟩ <;> decide
theorem idle : Statement .idle := by refine ⟨?_, ?_, ?_⟩ <;> decide
theorem startLow : Statement .startLow := by refine ⟨?_, ?_, ?_⟩ <;> decide
theorem startHigh : Statement .startHigh := by refine ⟨?_, ?_, ?_⟩ <;> decide
theorem hsLow : Statement .hsLow := by refine ⟨?_, ?_, ?_⟩ <;> decide
theorem hsHigh : Statement .hsHigh := by refine ⟨?_, ?_, ?_⟩ <;> decide
theorem bitHigh : Statement .bitHigh := by refine ⟨?_, ?_, ?_⟩ <;> decide
theorem bitLow : Statement .bitLow := by refine ⟨?_, ?_, ?_⟩ <;> decide
theorem validate : Statement .validate := by refine ⟨?_, ?_, ?_⟩ <;> decide

end Sys2Proof.Laws.RoundTrip
end

