-- ==== Sys2Proof/Laws/Step.lean ====
section
/-! SUPPORT. What a step can do, said once: every operation has a next state, and it is the state of one shared
operation. -/

namespace Sys2Proof.Machine

/-- The state that an operation leaves, as one function. -/
def effect : Instr → State → State
  | .rst, s          => s.resetStep
  | .nop, s          => s.noRequest
  | .acquire, s      => s.acceptAcquire
  | .reservedCmd2, s => s.noRequest
  | .reservedCmd3, s => s.noRequest
  | .idle, s         => if s.sample.cmd = 0b01 then s.acceptAcquire else s.noRequest
  | .startLow, s     => s.startLowStep Config.T_START_LOW
  | .startHigh, s    => s.startHighStep Config.T_START_HIGH
  | .hsLow, s        => s.hsLowStep
  | .hsHigh, s       => s.hsHighStep
  | .bitHigh, s      => s.bitHighStep
  | .bitLow, s       => s.bitLowStep
  | .validate, s     => s.validateStep

/-- No operation stops the block. -/
theorem exec_eq_effect (i : Instr) (s : State) : exec i s = .next (effect i s) := by
  cases i <;> rfl

/-- A step is the selected operation's effect, then the next sample. -/
theorem step_eq_effect (s : State) : step s = .next (effect s.currentInstr s).advance := by
  simp [step, exec_eq_effect]

/-- Inversion of a step. -/
theorem step_next_iff {s t : State} : step s = .next t ↔ t = (effect s.currentInstr s).advance := by
  rw [step_eq_effect]
  constructor
  · intro h; cases h; rfl
  · rintro rfl; rfl

/-- What the selected operation leaves, by `rst`, STATE and `cmd` (30_encoding.md R89). -/
theorem effect_currentInstr (s : State) :
    effect s.currentInstr s =
      if s.sample.rst then s.resetStep else
      match s.state with
      | .idle      => if s.sample.cmd = 0b01 then s.acceptAcquire else s.noRequest
      | .startLow  => s.startLowStep Config.T_START_LOW
      | .startHigh => s.startHighStep Config.T_START_HIGH
      | .hsLow     => s.hsLowStep
      | .hsHigh    => s.hsHighStep
      | .bitHigh   => s.bitHighStep
      | .bitLow    => s.bitLowStep
      | .validate  => s.validateStep := by
  by_cases hr : s.sample.rst
  · simp [State.currentInstr, decodeStep, hr, effect]
  · have hc : ∀ c : BitVec 2, effect (decodeCmd c) s = if c = 0b01 then s.acceptAcquire else s.noRequest := by
      intro c
      have : c = 0 ∨ c = 1 ∨ c = 2 ∨ c = 3 := by revert c; decide
      rcases this with rfl | rfl | rfl | rfl <;> rfl
    cases hs : s.state with
    | idle => simpa [State.currentInstr, decodeStep, hr, hs] using hc s.sample.cmd
    | _ => simp [State.currentInstr, decodeStep, hr, hs, effect]

/-- No operation takes or places a sample. -/
theorem effect_env (i : Instr) (s : State) : (effect i s).samples = s.samples ∧ (effect i s).tick = s.tick := by
  cases i <;>
    simp only [effect, State.noRequest, State.startLowStep, State.startHighStep, State.hsLowStep, State.hsHighStep,
      State.bitHighStep, State.bitLowStep, State.validateStep, State.hold, State.waitLevel] <;>
    (repeat' split) <;> exact ⟨rfl, rfl⟩

/-- The state with other samples placed. -/
def State.placing (xs : List Sample) (s : State) : State := { s with samples := xs }

/-- An operation reads no sample but this step's. -/
theorem effect_placing (i : Instr) (s : State) (x : Sample) (xs ys : List Sample) :
    effect i (s.placing (x :: ys)) = (effect i (s.placing (x :: xs))).placing (x :: ys) := by
  cases i <;>
    simp only [effect, State.startLowStep, State.startHighStep, State.hsLowStep, State.hsHighStep, State.bitHighStep,
      State.bitLowStep, State.validateStep, State.hold, State.waitLevel, apply_ite (State.placing (x :: ys))] <;>
    rfl

/-- A step takes one sample. -/
theorem step_env {s t : State} (h : step s = .next t) : t.samples = s.samples.tail ∧ t.tick = s.tick + 1 := by
  rw [step_next_iff] at h
  subst h
  simp [State.advance, effect_env]

/-- A step does not depend on the samples placed after its own. -/
theorem step_cons {s t : State} {x : Sample} {xs : List Sample} (ys : List Sample)
    (h : step { s with samples := x :: xs } = .next t) :
    step { s with samples := x :: ys } = .next { t with samples := ys } := by
  rw [step_next_iff] at h ⊢
  subst h
  exact (congrArg State.advance (effect_placing (State.currentInstr { s with samples := x :: xs }) s x xs ys)).symm

end Sys2Proof.Machine
end

