-- ==== Sys2Proof/Laws/Run.lean ====
section
/-! SUPPORT. Runs: one step unrolled, runs in sequence, the samples a run takes, the host's duty along a run, and runs on
an endless sequence of samples. -/

namespace Sys2Proof.Machine

@[simp] theorem run_zero (s : State) : run 0 s = .next s := rfl

/-- A run is its first step and the run from there. -/
theorem run_succ {s t : State} (n : Nat) (h : step s = .next t) : run (n + 1) s = run n t := by
  have hc : Host.Core.step Sys2Proof.core s = .next t := h
  simp only [run, Host.Core.run, hc]
  rfl

/-- The same, with the step's effect named. -/
theorem run_succ_effect (n : Nat) (s : State) : run (n + 1) s = run n (effect s.currentInstr s).advance :=
  run_succ n (step_eq_effect s)

/-- Runs compose. -/
theorem run_add {s t : State} (m n : Nat) (h : run m s = .next t) : run (m + n) s = run n t := by
  induction m generalizing s with
  | zero => cases h; simp
  | succ m ih =>
    rw [run_succ_effect] at h
    rw [show m + 1 + n = (m + n) + 1 by omega, run_succ_effect]
    exact ih h

/-- Every run has a last state: no step stops. -/
theorem run_total (n : Nat) (s : State) : ∃ t, run n s = .next t := by
  induction n generalizing s with
  | zero => exact ⟨s, rfl⟩
  | succ n ih => rw [run_succ_effect]; exact ih _

/-- A run of n steps takes n samples. -/
theorem run_samples (n : Nat) {s t : State} (h : run n s = .next t) : t.samples = s.samples.drop n := by
  induction n generalizing s with
  | zero => cases h; rfl
  | succ n ih =>
    rw [run_succ n (step_eq_effect s)] at h
    rw [ih h, (step_env (step_eq_effect s)).1, List.drop_tail]

/-- A host that asks for nothing after this step's sample keeps its duty (70_reset_and_hazards.md R234). -/
theorem State.keepsDuty_of_quiet {n : Nat} {s : State} (h0 : s.acquireDuty) (hn : n ≤ s.samples.length)
    (h : ∀ x ∈ s.samples.tail, x.cmd ≠ 0b01) : s.keepsDuty n := by
  intro k hk t ht
  cases k with
  | zero => cases ht; exact h0
  | succ k =>
    intro _ _
    have hd := run_samples _ ht
    obtain ⟨x, xs, hx⟩ : ∃ x xs, t.samples = x :: xs := by
      cases hc : t.samples with
      | cons x xs => exact ⟨x, xs, rfl⟩
      | nil => rw [hc] at hd; have := congrArg List.length hd; simp at this; omega
    have hm : x ∈ s.samples.tail := by
      have : x ∈ s.samples.drop (k + 1) := by simp [← hd, hx]
      rw [← List.drop_one]
      exact List.mem_of_mem_drop (i := k) (by rwa [List.drop_drop, Nat.add_comm 1 k])
    simpa [State.sample, hx] using h x hm

/-- Every run on a sequence has a last state. -/
theorem runOn_total (x : Nat → Sample) (n : Nat) (s : State) : ∃ t, runOn x n s = .next t := by
  induction n with
  | zero => exact ⟨s, rfl⟩
  | succ n ih => obtain ⟨t, h⟩ := ih; exact ⟨_, by rw [runOn, h]; exact step_eq_effect _⟩

/-- A run on a sequence, one step further. -/
theorem runOn_succ {x : Nat → Sample} {n : Nat} {s t : State} (h : runOn x n s = .next t) :
    runOn x (n + 1) s = step (t.feed (x n)) := by
  rw [runOn, h]

/-- A run on a sequence is the run with the sequence's first n samples placed. -/
theorem run_of_runOn (x : Nat → Sample) (n : Nat) {s t : State} (ys : List Sample) (h : runOn x n s = .next t) :
    run n { s with samples := (List.range n).map x ++ ys } = .next { t with samples := ys } := by
  induction n generalizing t ys with
  | zero => cases h; rfl
  | succ n ih =>
    obtain ⟨u, hu⟩ := runOn_total x n s
    rw [runOn_succ hu] at h
    rw [List.range_succ, List.map_append, List.append_assoc, List.map_singleton, List.singleton_append,
      run_add n 1 (ih (x n :: ys) hu)]
    exact run_succ 0 (step_cons ys h)

end Sys2Proof.Machine
end

