-- ==== Sys2Proof/Laws/Words.lean ====
section
/-! SUPPORT. The words built by concatenation, bit by bit and as fields: status, the humidity and temperature words, the
checksum. -/

namespace Sys2Proof.Machine

/-- Two neighbouring byte fields are one 16-bit field (20_memory.md R65). -/
theorem extract_append_extract (f : Frame) (a b : Nat) (h : a = b + 8) :
    (f.extractLsb' a 8 ++ f.extractLsb' b 8 : BitVec (8 + 8)) = f.extractLsb' b (8 + 8) := by
  subst h
  apply BitVec.eq_of_getLsbD_eq
  intro i hi
  simp only [BitVec.getLsbD_append, BitVec.getLsbD_extractLsb']
  by_cases h : i < 8
  · simp [h, show i < 8 + 8 by omega]
  · simp [h, hi, show i - 8 < 8 by omega, show b + 8 + (i - 8) = b + i by omega]

theorem humidityWord_eq (f : Frame) : humidityWord f = f.extractLsb' 24 16 :=
  extract_append_extract f 32 24 rfl

theorem temperatureWord_eq (f : Frame) : temperatureWord f = f.extractLsb' 8 16 :=
  extract_append_extract f 16 8 rfl

@[simp] theorem flagBit_getElem_zero (b : Bool) : (flagBit b)[0] = b := by cases b <;> rfl

/-- Bit i of seven concatenated fields of the status word's widths. -/
theorem status_fields_getLsbD (c : BitVec 6) (q o : BitVec 3) (v d b : BitVec 1) (i : Nat) :
    ((0 : BitVec 1) ++ c ++ q ++ o ++ v ++ d ++ b : BitVec (1 + 6 + 3 + 3 + 1 + 1 + 1)).getLsbD i =
      if i < 1 then b.getLsbD i else if i < 2 then d.getLsbD (i - 1) else if i < 3 then v.getLsbD (i - 2)
      else if i < 6 then o.getLsbD (i - 3) else if i < 9 then q.getLsbD (i - 6) else c.getLsbD (i - 9) := by
  simp only [BitVec.getLsbD_append]
  repeat' split
  all_goals first | omega | (congr 1; done) | skip
  all_goals simp
  all_goals (try apply BitVec.getLsbD_of_ge; try omega)

/-- Bit i of the status word (10_state.md R38). -/
theorem State.status_getLsbD (s : State) (i : Nat) :
    s.status.getLsbD i =
      if i < 1 then s.busy else if i < 2 then s.done else if i < 3 then s.valid
      else if i < 6 then s.outcome.code.getLsbD (i - 3)
      else if i < 9 then s.state.code.getLsbD (i - 6) else s.bitcount.getLsbD (i - 9) := by
  refine (status_fields_getLsbD s.bitcount s.state.code s.outcome.code (flagBit s.valid) (flagBit s.done)
    (flagBit s.busy) i).trans ?_
  by_cases h0 : i = 0
  · subst h0; simp
  by_cases h1 : i = 1
  · subst h1; simp
  by_cases h2 : i = 2
  · subst h2; simp
  have g0 : ¬ i < 1 := by omega
  have g1 : ¬ i < 2 := by omega
  have g2 : ¬ i < 3 := by omega
  simp [g0, g1, g2]

end Sys2Proof.Machine
end

