-- ==== Sys2Proof/Tests/Slice0.lean ====
section
/-! SUPPORT. The model's own tests: well-formedness refusals, every encoding of spec/30_encoding.md written out, the
vectors of spec/95_test_vectors.md (each test names its vector), and a witness for the hypotheses of every statement
that has some. Expected values are the spec's. -/

namespace Sys2Proof.Tests

open Sys2Proof.Machine

/-! ## Well-formedness: ill-formed terms are refused -/

theorem test_wf_word_too_wide :
    TableWord.wellFormed ⟨.rst, 2⟩ = false ∧ TableWord.wellFormed ⟨.cmd, 4⟩ = false ∧
    TableWord.wellFormed ⟨.state, 8⟩ = false := by decide

theorem test_wf_word_fits :
    TableWord.wellFormed ⟨.rst, 1⟩ = true ∧ TableWord.wellFormed ⟨.cmd, 3⟩ = true ∧
    TableWord.wellFormed ⟨.state, 7⟩ = true := by decide

/-- Just outside each bound of 00_scope.md R7. -/
theorem test_wf_params_out_of_range :
    Config.Params.wellFormed ⟨17999, 30, false⟩ = false ∧ Config.Params.wellFormed ⟨20000, 19, false⟩ = false ∧
    Config.Params.wellFormed ⟨20000, 41, false⟩ = false := by decide

theorem test_wf_params_of_spec : Config.specParams.wellFormed = true := by decide

/-! ## Decoding: each row of 30_encoding.md R81, R85 and the RST row, written out -/

theorem test_decode_rst : (decode ⟨.rst, 0b1⟩).toOption = some .rst := by decide
theorem test_decode_nop : (decode ⟨.cmd, 0b00⟩).toOption = some .nop := by decide
theorem test_decode_acquire : (decode ⟨.cmd, 0b01⟩).toOption = some .acquire := by decide
theorem test_decode_reserved_2 : (decode ⟨.cmd, 0b10⟩).toOption = some .reservedCmd2 := by decide
theorem test_decode_reserved_3 : (decode ⟨.cmd, 0b11⟩).toOption = some .reservedCmd3 := by decide
theorem test_decode_idle : (decode ⟨.state, 0b000⟩).toOption = some .idle := by decide
theorem test_decode_start_low : (decode ⟨.state, 0b001⟩).toOption = some .startLow := by decide
theorem test_decode_start_high : (decode ⟨.state, 0b010⟩).toOption = some .startHigh := by decide
theorem test_decode_hs_low : (decode ⟨.state, 0b011⟩).toOption = some .hsLow := by decide
theorem test_decode_hs_high : (decode ⟨.state, 0b100⟩).toOption = some .hsHigh := by decide
theorem test_decode_bit_high : (decode ⟨.state, 0b101⟩).toOption = some .bitHigh := by decide
theorem test_decode_bit_low : (decode ⟨.state, 0b110⟩).toOption = some .bitLow := by decide
theorem test_decode_validate : (decode ⟨.state, 0b111⟩).toOption = some .validate := by decide

theorem test_decode_refuses :
    (decode ⟨.rst, 0⟩).toOption = none ∧ (decode ⟨.cmd, 4⟩).toOption = none ∧ (decode ⟨.state, 8⟩).toOption = none := by
  decide

/-- The host's question, with a row's own width and in whole bytes (log entry 3). -/
theorem test_decode_table_word :
    decodeTableWord 1 1 = some .rst ∧ decodeTableWord 2 1 = some .acquire ∧ decodeTableWord 3 1 = some .startLow ∧
    decodeTableWord 8 7 = some .validate ∧ decodeTableWord 8 8 = none := by decide

/-! ## Helpers -/

/-- A state in `q` with T0 = `t0`, everything else as after reset, and one sample for its step. -/
def given (q : FsmState) (t0 t : Time) (l : Bool) (cmd : BitVec 2 := 0) : State :=
  { State.reset with state := q, t0 := t0, samples := [⟨false, cmd, t, l⟩] }

/-- The state after one step. -/
def after (s : State) : State :=
  match step s with
  | .next t => t
  | _ => s

/-- The state after a Success of 95_test_vectors.md P3, with a sample for the next step. -/
def succeeded (x : Sample) : State :=
  { State.reset with
    outcome := .success, valid := true, done := true, frame := 0x028C010190, bitcount := 40, t0 := 23504,
    humR := 0x028C, tempR := 0x0101, tempX10R := 0x0101, samples := [x] }

/-- BIT_LOW with BITCOUNT = i, rise time 5000, FRAME = 0, and the fall (or none) seen e us later. -/
def reading (i : BitVec 6) (e : Time) (l : Bool) : State :=
  { given .bitLow 5000 (5000 + e) l with bitcount := i }

/-- VALIDATE with a full frame. -/
def full (f : Frame) : State := { given .validate 0 0 true with frame := f, bitcount := 40 }

theorem step_after (s : State) : step s = .next (after s) := by simp [after, step_eq_effect]

/-! ## Placing a table word -/

/-- From reset, each placement runs its operation (the three formats; log entry 2). -/
theorem test_fetch_word :
    (State.reset.withFetchWord 2 1).currentInstr = .acquire ∧ (State.reset.withFetchWord 1 1).currentInstr = .rst ∧
    (State.reset.withFetchWord 8 6).currentInstr = .bitLow ∧
    (after (State.reset.withFetchWord 2 1)).state = .startLow ∧
    (after (State.reset.withFetchWord 8 7)).outcome = .success := by decide

/-! ## Time (L2-1) -/

theorem test_elapsed :
    elapsed 1000 1100 = 100 ∧ elapsed 0xFFFFFFF0 0x00000010 = 32 ∧ elapsed 0xFFFFFFFF 0 = 1 ∧
    elapsed 0x10 0x10 = 0 ∧ elapsed 0xFFFFC000 0x00000E20 = 20000 := by decide

/-! ## Commands and reset (L2-9, L2-10) -/

theorem test_nop_and_reserved_change_nothing :
    after (given .idle 0 0 true 0b00) = { State.reset with tick := 1 } ∧
    after (given .idle 0 0 true 0b10) = { State.reset with tick := 1 } ∧
    after (given .idle 0 0 true 0b11) = { State.reset with tick := 1 } := by decide

theorem test_acquire_from_reset :
    let t := after (given .idle 0 0 true 0b01)
    t.state = .startLow ∧ t.lineOe = true ∧ t.lineOut = false ∧ t.t0 = 0 ∧ t.status = 0x0041 := by decide

theorem test_acquire_clears_last_result :
    let t := after (succeeded ⟨false, 0b01, 9, true⟩)
    t.outcome = .none ∧ t.valid = false ∧ t.humR = 0 ∧ t.tempR = 0 ∧ t.tempX10R = 0 ∧ t.frame = 0 ∧
    t.bitcount = 0 ∧ t.t0 = 9 ∧ t.state = .startLow ∧ t.done = false := by decide

theorem test_idle_row_decodes_command :
    effect .idle (given .idle 0 7 true 0b01) = effect .acquire (given .idle 0 7 true 0b01) ∧
    effect .idle (given .idle 0 7 true 0b11) = effect .nop (given .idle 0 7 true 0b11) := by decide

theorem test_reset_wins_over_acquire :
    after (succeeded ⟨true, 0b01, 9, true⟩) = { State.reset with tick := 1 } := by decide

theorem test_acquire_ignored_while_busy :
    let t := after (given .startLow 0 100 true 0b01)
    t.state = .startLow ∧ t.t0 = 0 := by decide

/-! ## Start signal (L2-2) -/

theorem test_start_low_boundary :
    (after (given .startLow 0 19999 true)).state = .startLow ∧
    (after (given .startLow 0 20000 true)).state = .startHigh ∧
    (after (given .startLow 0 20000 true)).lineOut = true := by decide

theorem test_start_low_overshoot_is_kept : (after (given .startLow 0 20007 false)).t0 = 20007 := by decide

theorem test_start_high_boundary :
    (after (given .startHigh 20000 20029 true)).state = .startHigh ∧
    (after (given .startHigh 20000 20030 true)).state = .hsLow ∧
    (after (given .startHigh 20000 20030 true)).t0 = 20030 := by decide

theorem test_start_high_across_the_wrap :
    (after (given .startHigh 0xFFFFFFC0 0xFFFFFFDD false)).state = .startHigh ∧
    (after (given .startHigh 0xFFFFFFF0 0x0000000E false)).state = .hsLow := by decide

/-! ## Level waits (L2-3) -/

theorem test_hs_low_waits :
    (after (given .hsLow 1000 1100 true)).state = .hsLow ∧
    (after (given .hsLow 1000 1101 true)).outcome = .timeoutHsLow ∧
    (after (given .hsLow 1000 1101 true)).done = true := by decide

theorem test_hs_low_level_first :
    (after (given .hsLow 1000 1250 false)).state = .hsHigh ∧ (after (given .hsLow 1000 1001 false)).t0 = 1001 := by
  decide

theorem test_hs_high_waits :
    (after (given .hsHigh 1000 1100 false)).state = .hsHigh ∧
    (after (given .hsHigh 1000 1101 false)).outcome = .timeoutHsHigh := by decide

theorem test_hs_high_goes_to_bit_high :
    (after (given .hsHigh 20050 20130 true)).state = .bitHigh ∧
    (after (given .hsHigh 20050 20130 true)).t0 = 20130 := by decide

theorem test_bit_high_waits :
    (after (given .bitHigh 1000 1100 false)).state = .bitHigh ∧
    (after (given .bitHigh 1000 1101 false)).outcome = .timeoutBit ∧
    (after (given .bitHigh 1000 1101 false)).state = .idle := by decide

theorem test_bit_high_rise :
    (after (given .bitHigh 1000 1050 true)).state = .bitLow ∧ (after (given .bitHigh 1000 1050 true)).t0 = 1050 := by
  decide

/-- L2-4 and L2-5: the boundary 45 / 46, e = 0, e = 101 with the fall, and the placement of bits 0 and 39. -/
theorem test_bit_low_classifies_and_places :
    (after (reading 0 45 false)).frame = 0 ∧ (after (reading 0 46 false)).frame = 0x8000000000 ∧
    (after (reading 0 0 false)).frame = 0 ∧ (after (reading 16 101 false)).frame = 0x0000800000 ∧
    (after (reading 39 70 false)).frame = 1 ∧ (after (reading 39 70 false)).state = .validate ∧
    (after (reading 39 70 false)).bitcount = 40 ∧ (after (reading 38 27 false)).state = .bitHigh := by decide

theorem test_bit_low_times_out :
    (after (reading 5 100 true)).state = .bitLow ∧ (after (reading 5 101 true)).outcome = .timeoutBit ∧
    (after (reading 5 101 true)).status = 0x0A2A := by decide

/-! ## Checksum and values (L2-6, L2-7, L2-8) -/

theorem test_checksum :
    checksumOk 0x028C010190 = true ∧ checksumOk 0x028C800513 = true ∧ checksumOk 0x028C800515 = false ∧
    checksumOk 0 = true ∧ checksumOk 0xFFFFFFFFFC = true ∧ checksumOk 0xFFFFFFFFFB = false ∧
    checksumOk 0x8080000000 = true ∧ checksumOk 0x81460080C8 = false := by decide

theorem test_temp_x10 :
    tempX10 0x0101 = 0x0101 ∧ tempX10 0x8005 = 0xFFFB ∧ tempX10 0x8000 = 0 ∧ tempX10 0x8065 = 0xFF9B ∧
    tempX10 0x7FFF = 0x7FFF ∧ tempX10 0xFFFF = 0x8001 := by decide

/-- L1-1. -/
theorem test_validate_success :
    let t := after (full 0x028C010190)
    t.outcome = .success ∧ t.valid = true ∧ t.humR = 0x028C ∧ t.tempR = 0x0101 ∧ t.tempX10R = 257 ∧
    t.status = 0x500E := by decide

/-- L1-2 as given: the checksum is wrong and nothing is published. -/
theorem test_validate_mismatch :
    let t := after (full 0x028C800515)
    t.outcome = .checksumMismatch ∧ t.valid = false ∧ t.humR = 0 ∧ t.tempR = 0 ∧ t.tempX10R = 0 ∧
    t.status = 0x5012 := by decide

/-- L1-2 corrected: -0.5 degC, and L1-1's 65.2 %RH. -/
theorem test_exact_values :
    (after (full 0x028C800513)).reading = ⟨652, true, 5⟩ ∧
    Reading.humidity ⟨652, true, 5⟩ = 652 / 10 ∧ Reading.temperature ⟨652, true, 5⟩ = -5 / 10 := by
  refine ⟨by decide, ?_, ?_⟩ <;> norm_num [Reading.humidity, Reading.temperature]

/-- L2-11. -/
theorem test_status_packing :
    State.reset.status = 0x0000 ∧ (given .startHigh 0 0 true).status = 0x0081 ∧ (given .hsLow 0 0 true).status = 0x00C1 ∧
    (given .hsHigh 0 0 true).status = 0x0101 ∧ (given .bitHigh 0 0 true).status = 0x0141 ∧
    (reading 39 0 true).status = 0x4F81 ∧ (full 0).status = 0x51C1 := by decide

/-- 30_encoding.md R86's six codes at status[5:3], in IDLE with everything else at its reset value. -/
theorem test_status_outcome_codes :
    [OutcomeCode.none, .success, .checksumMismatch, .timeoutHsLow, .timeoutHsHigh, .timeoutBit].map
      (fun o => State.status { State.reset with outcome := o }) =
    [0x0000, 0x0008, 0x0010, 0x0018, 0x0020, 0x0028] := by decide

/-! ## The variant (P4, first_bit_align) -/

theorem test_variant_waits_for_the_fall :
    let p : Config.Params := ⟨20000, 30, true⟩
    variantStep p ⟨given .hsHigh 20050 20130 true, false⟩ =
      ⟨{ State.reset with state := .hsHigh, t0 := 20130, tick := 1 }, true⟩ ∧
    variantStep p ⟨given .hsHigh 20130 20210 false, true⟩ =
      ⟨{ State.reset with state := .bitHigh, t0 := 20210, tick := 1 }, false⟩ ∧
    (variantStep p ⟨given .hsHigh 20130 20231 true, true⟩).block.outcome = .timeoutHsHigh := by decide

/-! ## Witnesses: states and operands that meet the hypotheses of the statements -/

/-- Item 7 of R45 where FRAME is 0. -/
theorem frame_zero_unread {s : State} (h : s.frame = 0) :
    ∀ i, s.bitcount.toNat ≤ i → i < Config.N_BITS → s.frame.getLsbD (Config.N_BITS - 1 - i) = false := by
  intro i _ _
  simp [h]

/-- A state in the middle of a frame that meets R45: one bit from the end, the line released. -/
theorem witness_inv_reading : (reading 39 70 false).Inv where
  driving := by decide
  drivenLow := by decide
  validOutcome := by decide
  noReading := by decide
  busyOutcome := by decide
  countBound := by decide
  countReading := by decide
  countValidate := by decide
  countStart := by decide
  frameUnread := frame_zero_unread rfl
  outcomeCode := by decide
  doneIdle := by decide

/-- A state with DONE = 1 and a reading that meets R45. -/
theorem witness_inv_succeeded (x : Sample) : (succeeded x).Inv where
  driving := by simp [succeeded, State.reset]
  drivenLow := by simp [succeeded, State.reset]
  validOutcome := by simp [succeeded]
  noReading := by simp [succeeded]
  busyOutcome := by simp [succeeded, State.reset]
  countBound := by simp [succeeded, Config.N_BITS]
  countReading := by simp [succeeded, State.reset]
  countValidate := by simp [succeeded, State.reset]
  countStart := by simp [succeeded, State.reset]
  frameUnread := by intro i h h'; simp [succeeded, Config.N_BITS] at h h'; omega
  outcomeCode := by simp [succeeded, OutcomeCode.code]
  doneIdle := by simp [succeeded, State.reset]

theorem witness_recorded_succeeded (x : Sample) : (succeeded x).Recorded where
  success := fun _ => ⟨rfl, by show checksumOk 0x028C010190 = true; decide,
    by show (0x028C : Half) = humidityWord 0x028C010190; decide,
    by show (0x0101 : Half) = temperatureWord 0x028C010190; decide,
    by show (0x0101 : Half) = tempX10 (temperatureWord 0x028C010190); decide⟩
  checksumMismatch := by simp [succeeded]
  timeoutHandshake := by simp [succeeded]
  timeoutBit := by simp [succeeded]

theorem witness_ResetStepLoadsResetValues : (succeeded ⟨true, 0b01, 9, true⟩).sample.rst = true := rfl

theorem witness_NopAndReservedCommandsOnlyClearDone :
    Instr.reservedCmd3 = .nop ∨ Instr.reservedCmd3 = .reservedCmd2 ∨ Instr.reservedCmd3 = .reservedCmd3 := by decide

theorem witness_IdleActsOnCommand :
    (given .idle 0 0 true 0b01).sample.cmd = 0b01 ∧ (given .idle 0 0 true 0b11).sample.cmd ≠ 0b01 := by decide

theorem witness_BitLowMeasuresAndAccumulates : (reading 39 46 false).bitcount.toNat ≤ 39 := by decide

theorem witness_BitLowBeyondTheFrameLeavesFrameFree : 40 ≤ (reading 40 46 false).bitcount.toNat := by decide

theorem witness_StepRunsSelectedOperation :
    let s := given .hsLow 0 5 false
    s.acquireDuty ∧ exec (decodeStep s.sample.rst s.state s.sample.cmd) s = .next (effect .hsLow s) ∧
    FsmState.hsLow ≠ .idle := ⟨by decide, rfl, by decide⟩

theorem witness_DecodeAndEncodeAreInverse : decode ⟨.state, 7⟩ = .ok .validate := rfl

/-- One state for each clause of the table of edges; each keeps the duty, the reset step with any `cmd`. -/
theorem witness_StateMovesAlongTableEdges :
    (after (given .idle 0 0 true 0b01)).state = .startLow ∧ (after (given .hsLow 0 101 true)).state = .idle ∧
    (after (given .hsHigh 0 101 false)).state = .idle ∧ (after (given .bitHigh 0 101 false)).state = .idle ∧
    (after (reading 39 70 false)).state = .validate ∧ (reading 39 70 false).bitcount.toNat = 39 ∧
    (succeeded ⟨true, 0, 0, true⟩).sample.rst = true ∧ (given .idle 0 0 true 0b01).acquireDuty ∧
    (given .hsLow 0 101 true).acquireDuty ∧ (given .hsHigh 0 101 false).acquireDuty ∧
    (given .bitHigh 0 101 false).acquireDuty ∧ (reading 39 70 false).acquireDuty ∧
    (succeeded ⟨true, 0, 0, true⟩).acquireDuty := by decide

theorem witness_RegistersHaveOnlyTheirWriters :
    exec .bitLow (reading 0 46 false) = .next (effect .bitLow (reading 0 46 false)) ∧
    (effect .bitLow (reading 0 46 false)).frame ≠ (reading 0 46 false).frame ∧
    (effect .bitLow (reading 0 46 false)).state ≠ (reading 0 46 false).state ∧
    exec .hsLow (given .hsLow 0 101 true) = .next (effect .hsLow (given .hsLow 0 101 true)) ∧
    (effect .hsLow (given .hsLow 0 101 true)).done = true := ⟨rfl, by decide, by decide, rfl, by decide⟩

theorem witness_EnteringTimedStateLatchesTime :
    (given .startLow 0 20000 true).acquireDuty ∧
    step (given .startLow 0 20000 true) = .next (after (given .startLow 0 20000 true)) ∧
    (after (given .startLow 0 20000 true)).state ≠ .startLow ∧
    timed (after (given .startLow 0 20000 true)).state = true := ⟨by decide, step_after _, by decide, by decide⟩

theorem witness_StayingInTimedStateChangesNothing :
    (given .startLow 0 19999 true).acquireDuty ∧
    step (given .startLow 0 19999 true) = .next (after (given .startLow 0 19999 true)) ∧
    (given .startLow 0 19999 true).sample.rst = false ∧ timed .startLow = true ∧
    (after (given .startLow 0 19999 true)).state = .startLow := ⟨by decide, step_after _, rfl, rfl, by decide⟩

theorem witness_TargetLevelSucceedsHoweverLate :
    (given .bitHigh 0 250 true).acquireDuty ∧
    awaited (given .bitHigh 0 250 true).state = some (true, .timeoutBit) ∧
    (given .bitHigh 0 250 true).sample.rst = false ∧ (given .bitHigh 0 250 true).sample.lineIn = true := by decide

theorem witness_LineIgnoredOutsideWaits :
    readsLine (given .idle 0 0 true).state = false ∧ readsLine (given .validate 0 0 true).state = false ∧
    State.acquireDuty { State.reset with state := .validate, samples := [⟨false, 0b10, 0, true⟩] } := by decide

/-- A reserved command for NOP outside a reset step, ACQUIRE for NOP in one. -/
theorem witness_CommandIgnoredOutsideIdle :
    let s := given .startLow 0 100 true
    s.state ≠ .idle ∧ State.acquireDuty { s with samples := [⟨false, 0b00, 100, true⟩] } ∧
    State.acquireDuty { s with samples := [⟨false, 0b11, 100, true⟩] } ∧
    State.acquireDuty { s with samples := [⟨true, 0b01, 100, true⟩] } := by decide

theorem witness_FlagsDoNotAffectSequencing :
    (given .hsLow 0 5 false).acquireDuty ∧
    step (given .hsLow 0 5 false) = .next (after (given .hsLow 0 5 false)) := ⟨by decide, step_after _⟩

theorem witness_DoneIsOneStepPulse :
    (succeeded ⟨false, 0, 9, true⟩).acquireDuty ∧ (succeeded ⟨false, 0, 9, true⟩).Inv ∧ (succeeded ⟨false, 0, 9, true⟩).done = true ∧
    step (succeeded ⟨false, 0, 9, true⟩) = .next (after (succeeded ⟨false, 0, 9, true⟩)) :=
  ⟨by decide, witness_inv_succeeded _, rfl, step_after _⟩

theorem witness_AcquisitionNeverReturnsToEarlierPhase :
    (reading 39 70 false).acquireDuty ∧ (reading 39 70 false).Inv ∧ step (reading 39 70 false) = .next (after (reading 39 70 false)) ∧
    (reading 39 70 false).sample.rst = false ∧ (reading 39 70 false).state ≠ .idle :=
  ⟨by decide, witness_inv_reading, step_after _, rfl, by decide⟩

theorem witness_StepKeepsInvariant :
    (reading 39 70 false).acquireDuty ∧ (reading 39 70 false).Inv ∧ step (reading 39 70 false) = .next (after (reading 39 70 false)) :=
  ⟨by decide, witness_inv_reading, step_after _⟩

theorem witness_StepKeepsOutcomeRecord :
    (succeeded ⟨false, 0, 9, true⟩).acquireDuty ∧ (succeeded ⟨false, 0, 9, true⟩).Inv ∧ (succeeded ⟨false, 0, 9, true⟩).Recorded ∧
    step (succeeded ⟨false, 0, 9, true⟩) = .next (after (succeeded ⟨false, 0, 9, true⟩)) :=
  ⟨by decide, witness_inv_succeeded _, witness_recorded_succeeded _, step_after _⟩

theorem witness_FailureYieldsNoReading :
    (reading 39 70 false).acquireDuty ∧ (reading 39 70 false).Inv ∧ step (reading 39 70 false) = .next (after (reading 39 70 false)) ∧
    (after (reading 39 70 false)).outcome ≠ .success := ⟨by decide, witness_inv_reading, step_after _, by decide⟩

theorem witness_AcquisitionsAreIndependent :
    let s := given .idle 0 9 true 0b01
    let u := succeeded ⟨false, 0b01, 9, true⟩
    s ≠ u ∧ s.state = .idle ∧ u.state = .idle ∧ s.samples = u.samples ∧ s.tick = u.tick ∧ s.sample.rst = false ∧
    s.sample.cmd = 0b01 ∧ s.keepsDuty (0 + 1) := by
  refine ⟨by decide, rfl, rfl, rfl, rfl, rfl, rfl, State.keepsDuty_of_quiet (by decide) (by decide) ?_⟩
  simp [given]

/-- Across the wrap of the timer. -/
theorem witness_ElapsedIsTrueTime : 2 ^ 32 - 16 ≤ 2 ^ 32 + 16 ∧ (2 ^ 32 + 16) - (2 ^ 32 - 16) < 2 ^ 32 := by decide

theorem witness_HoldEndsAtFirstDueSample :
    let s := { given .startHigh 20000 20029 true with
      samples := [⟨false, 0, 20029, true⟩, ⟨false, 0, 20030, true⟩] }
    s.state = .startHigh ∧ s.samples = [⟨false, 0, 20029, true⟩] ++ ⟨false, 0, 20030, true⟩ :: [] ∧
    holds s.t0 30 [⟨false, 0, 20029, true⟩] ∧ 30 ≤ ((20030 : Time) - s.t0).toNat ∧ s.keepsDuty (1 + 1) := by
  refine ⟨rfl, rfl, ?_, by decide, State.keepsDuty_of_quiet (by decide) (by decide) (by simp)⟩
  simp [holds]; decide

theorem witness_WaitTimesOutAtFirstLateSample :
    let s := { given .hsLow 0 100 true with samples := [⟨false, 0, 100, true⟩, ⟨false, 0, 101, true⟩] }
    awaited s.state = some (false, .timeoutHsLow) ∧
    s.samples = [⟨false, 0, 100, true⟩] ++ ⟨false, 0, 101, true⟩ :: [] ∧
    polls (!false) s.t0 100 [⟨false, 0, 100, true⟩] ∧ edge (!false) ⟨false, 0, 101, true⟩ ∧
    100 < ((101 : Time) - s.t0).toNat ∧ s.keepsDuty (1 + 1) := by
  refine ⟨rfl, rfl, ?_, by simp [edge], by decide, State.keepsDuty_of_quiet (by decide) (by decide) (by simp)⟩
  simp [polls]; decide

/-- One sample each 20 ms, the line low, ACQUIRE asked once. -/
def slowAt (k : Nat) : Sample := ⟨false, if k = 0 then 0b01 else 0b00, BitVec.ofNat 32 (20000 * k), false⟩

/-- 88 samples reach past the bound. -/
def slow : List Sample := (List.range 88).map slowAt

theorem witness_AcquisitionEndsWithinBound :
    let s := { State.reset with samples := slow }
    s.state = .idle ∧ s.sample.cmd = 0b01 ∧ Schedule (20000 * ·) s.samples ∧ spacedBy 20000 (20000 * ·) ∧
    20000 + 20000 < 2 ^ 32 ∧ (∀ x ∈ s.samples, x.rst = false) ∧ 86 + 2 ≤ s.samples.length ∧
    20000 * 0 + 28230 + 84 * 20000 ≤ 20000 * 86 ∧ s.keepsDuty (86 + 2) := by
  refine ⟨rfl, rfl, ⟨fun k => by simp, ?_⟩, fun k => by simp; omega, by decide, ?_, by simp [slow], by decide,
    State.keepsDuty_of_quiet (by decide) (by simp [slow]) ?_⟩
  · intro k x h
    simp only [slow, List.getElem?_map, Option.map_eq_some_iff] at h
    obtain ⟨j, hj, rfl⟩ := h
    have hjk : j = k := by
      rw [List.getElem?_eq_some_iff] at hj
      obtain ⟨_, hj⟩ := hj
      simpa using hj.symm
    simp [slowAt, hjk]
  · intro x hx
    simp only [slow, List.mem_map] at hx
    obtain ⟨_, _, rfl⟩ := hx
    rfl
  · decide

/-- The states that the slow samples run through: four phases, the handshake's timeout, then IDLE. -/
def slowStates : List FsmState := [.idle, .startLow, .startHigh, .hsLow, .hsHigh, .idle]

theorem slow_first (n : Nat) (h : n ≤ 5) :
    ∃ t, runOn slowAt n State.reset = .next t ∧ some t.state = slowStates[n]? := by
  have : n = 0 ∨ n = 1 ∨ n = 2 ∨ n = 3 ∨ n = 4 ∨ n = 5 := by omega
  rcases this with rfl | rfl | rfl | rfl | rfl | rfl <;> exact ⟨_, rfl, by decide⟩

/-- From step 5 on the block is in IDLE with NOP asked. -/
theorem slow_idle (n : Nat) : ∃ t, runOn slowAt (n + 5) State.reset = .next t ∧ t.state = .idle := by
  induction n with
  | zero =>
    obtain ⟨t, h, hs⟩ := slow_first 5 (le_refl _)
    exact ⟨t, h, by simpa [slowStates] using hs⟩
  | succ n ih =>
    obtain ⟨t, h, hs⟩ := ih
    refine ⟨_, by rw [show n + 1 + 5 = (n + 5) + 1 by omega, runOn_succ h]; exact step_eq_effect _, ?_⟩
    rw [effect_currentInstr]
    simp [State.feed, State.sample, slowAt, hs, State.noRequest, State.clearDone, State.advance]

/-- No phase stays: two successive states of the run are not the same hold or wait state. -/
theorem slow_pollsWithinWrap : PollsWithinWrap (20000 * ·) slowAt State.reset := by
  intro j k q hjk hq hsame _
  obtain ⟨t, ht, hts⟩ := hsame (j + 1) (by omega) (by omega)
  have hj : j + 1 < 5 := by
    by_contra h
    obtain ⟨u, hu, hus⟩ := slow_idle (j + 1 - 5)
    rw [show j + 1 - 5 + 5 = j + 1 by omega, ht] at hu
    cases hu
    rw [hts] at hus
    subst hus
    simp [timed] at hq
  by_cases hk : k = j
  · subst hk; show 20000 * (k + 1) < 20000 * k + 2 ^ 32; omega
  · obtain ⟨u, hu, hus⟩ := hsame (j + 2) (by omega) (by omega)
    obtain ⟨v, hv, hvs⟩ := slow_first (j + 1) (by omega)
    obtain ⟨w, hw, hws⟩ := slow_first (j + 2) (by omega)
    rw [ht] at hv
    rw [hu] at hw
    cases hv
    cases hw
    rw [hts] at hvs
    rw [hus, hvs] at hws
    have : j = 0 ∨ j = 1 ∨ j = 2 ∨ j = 3 := by omega
    rcases this with rfl | rfl | rfl | rfl <;> simp [slowStates] at hws

theorem slow_fairTime : FairTime (20000 * ·) slowAt where
  monotone := fun k => by simp
  stamped := fun _ => rfl
  progress := fun j b => ⟨j + b + 1, by omega, by show 20000 * j + b < 20000 * (j + b + 1); omega⟩

theorem slow_keepsDutyOn : keepsDutyOn slowAt State.reset := by
  intro k t h hb _
  cases k with
  | zero => cases h; exact absurd hb (by decide)
  | succ k => simp [State.feed, State.sample, slowAt]

theorem witness_AcquisitionEndsUnderFairTime :
    State.reset.state = .idle ∧ (slowAt 0).cmd = 0b01 ∧ (∀ k, (slowAt k).rst = false) ∧
    FairTime (20000 * ·) slowAt ∧ PollsWithinWrap (20000 * ·) slowAt State.reset ∧
    keepsDutyOn slowAt State.reset :=
  ⟨rfl, rfl, fun _ => rfl, slow_fairTime, slow_pollsWithinWrap, slow_keepsDutyOn⟩

/-- IDLE is occupied from step 5 on. -/
theorem witness_NoStateIsOccupiedForEver :
    State.reset.state = .idle ∧ FairTime (20000 * ·) slowAt ∧ PollsWithinWrap (20000 * ·) slowAt State.reset ∧
    keepsDutyOn slowAt State.reset ∧
    ∀ k, 5 ≤ k → ∃ t, runOn slowAt k State.reset = .next t ∧ t.state = .idle :=
  ⟨rfl, slow_fairTime, slow_pollsWithinWrap, slow_keepsDutyOn, fun k h => by
    obtain ⟨n, rfl⟩ := Nat.exists_eq_add_of_le' h
    exact slow_idle n⟩

theorem witness_BitGoesToItsBytePosition :
    (reading 39 46 false).bitcount.toNat ≤ 39 ∧ (reading 39 46 false).sample.lineIn = false ∧
    exec .bitLow (reading 39 46 false) = .next (effect .bitLow (reading 39 46 false)) := ⟨by decide, rfl, rfl⟩

theorem witness_ChecksumIgnoresByteOrder : [0x02#8, 0x8C#8, 0x01#8, 0x01#8].Perm [0x8C#8, 0x02#8, 0x01#8, 0x01#8] := by
  decide

theorem witness_WordsGiveExactReading :
    (succeeded default).tempX10R = tempX10 (succeeded default).tempR := by decide

/-- A train of n pulses, 50 us low and 70 us high, seen at their edges only: all ones. -/
def train : Time → Nat → List Pulse
  | _, 0     => []
  | t, n + 1 => ⟨[], ⟨false, 0, t + 50, true⟩, [], ⟨false, 0, t + 120, false⟩⟩ :: train (t + 120) n

theorem train_inTime (t : Time) (n : Nat) : pulsesInTime t (train t n) := by
  induction n generalizing t with
  | zero => trivial
  | succ n ih => exact ⟨⟨by simp [polls], ⟨rfl, rfl⟩, by simp [polls], ⟨rfl, rfl⟩⟩, ih _⟩

theorem train_quiet (t : Time) (n : Nat) : ∀ x ∈ (train t n).flatMap Pulse.samples, x.cmd ≠ 0b01 := by
  induction n generalizing t with
  | zero => simp [train]
  | succ n ih =>
    intro x hx
    simp only [train, List.flatMap_cons, List.mem_append] at hx
    rcases hx with hx | hx
    · simp only [Pulse.samples, List.nil_append, List.mem_cons, List.not_mem_nil, or_false] at hx
      rcases hx with rfl | rfl <;> simp
    · exact ih _ x hx

theorem train_length (t : Time) (n : Nat) : (train t n).length = n := by
  induction n generalizing t with
  | zero => rfl
  | succ n ih => simp [train, ih]

theorem witness_FortyPulsesAreTheFrame :
    let ps := train 20130 40
    let s := { given .bitHigh 20130 0 true with samples := ps.flatMap Pulse.samples ++ default :: [] }
    s.state = .bitHigh ∧ s.bitcount = 0 ∧ s.frame = 0 ∧ ps.length = 40 ∧ pulsesInTime s.t0 ps ∧
    (default : Sample).rst = false ∧ s.keepsDuty ((ps.flatMap Pulse.samples).length + 1) := by
  refine ⟨rfl, rfl, rfl, train_length _ _, train_inTime _ _, rfl, State.keepsDuty_of_quiet ?_ (by simp) ?_⟩
  · exact fun _ _ => by decide
  · intro x hx
    have hx := List.mem_of_mem_tail hx
    simp only [List.mem_append, List.mem_singleton] at hx
    rcases hx with hx | rfl
    · exact train_quiet _ _ x hx
    · decide

/-- The edges of 95_test_vectors.md's common start sequence and handshake, then the train. -/
def allOnes : Waveform where
  acquire  := ⟨false, 0b01, 0, true⟩
  lowHold  := [⟨false, 0, 19999, true⟩]
  lowEnd   := ⟨false, 0, 20000, true⟩
  highHold := [⟨false, 0, 20029, true⟩]
  highEnd  := ⟨false, 0, 20030, true⟩
  hsHighs  := [⟨false, 0, 20031, true⟩]
  hsFall   := ⟨false, 0, 20050, false⟩
  hsLows   := [⟨false, 0, 20051, false⟩]
  hsRise   := ⟨false, 0, 20130, true⟩
  pulses   := train 20130 40
  check    := ⟨false, 0, 25000, true⟩

theorem witness_AcquisitionDeliversReading : allOnes.InTime where
  acquire := by decide
  lowHold := by simp [holds, allOnes, elapsed]
  lowEnd := by decide
  highHold := by simp [holds, allOnes, elapsed]
  highEnd := by decide
  hsHighs := by simp [polls, allOnes, elapsed]
  hsFall := ⟨rfl, rfl⟩
  hsLows := by simp [polls, allOnes, elapsed]
  hsRise := ⟨rfl, rfl⟩
  pulses := train_inTime _ _
  count := train_length _ _
  check := rfl

theorem witness_AcquisitionDeliversReading_duty :
    let s := { State.reset with samples := allOnes.samples ++ [] }
    s.state = .idle ∧ s.keepsDuty allOnes.samples.length := by
  refine ⟨rfl, State.keepsDuty_of_quiet (by decide) (by simp) ?_⟩
  intro x hx
  simp only [allOnes, Waveform.samples, List.cons_append, List.append_nil, List.nil_append, List.tail_cons,
    List.mem_cons, List.mem_append, List.not_mem_nil, or_false] at hx
  rcases hx with rfl | rfl | rfl | rfl | rfl | rfl | rfl | rfl | hx | rfl
  case inr.inr.inr.inr.inr.inr.inr.inr.inl => exact train_quiet _ _ x hx
  all_goals decide

/-- The shortest and the longest handshake high of the statement. -/
theorem witness_FirstBitMeasuresHandshakeHigh :
    let samples (H : Nat) : List Sample :=
      (List.range (H + 1)).map (fun k => ⟨false, 0, 0 + BitVec.ofNat 32 k, decide (k < H)⟩) ++ []
    let s (H : Nat) : State := { given .hsHigh 0 0 true with samples := samples H }
    2 ≤ 2 ∧ 102 ≤ 102 ∧ (s 2).state = .hsHigh ∧ (s 2).bitcount = 0 ∧ (s 2).frame = 0 ∧ (s 2).samples = samples 2 ∧
    (s 102).samples = samples 102 ∧ (∀ H, (s H).keepsDuty (H + 1)) := by
  refine ⟨le_refl _, le_refl _, rfl, rfl, rfl, rfl, rfl, fun H => State.keepsDuty_of_quiet ?_ (by simp) ?_⟩
  · intro _ _
    simp [State.sample, List.range_succ_eq_map]
  · intro x hx
    have hx := List.mem_of_mem_tail hx
    simp only [List.append_nil, List.mem_map] at hx
    obtain ⟨_, _, rfl⟩ := hx
    simp

theorem witness_VariantAtSpecParamsIsTheMachine : (given .hsHigh 0 5 true).acquireDuty := by decide

theorem witness_VariantStepKeepsInvariant :
    (VariantState.mk (reading 39 70 false) false).block.acquireDuty ∧
    (VariantState.mk (reading 39 70 false) false).block.Inv := ⟨by decide, witness_inv_reading⟩

theorem witness_VariantHoldsLastSourceMinimum :
    let p : Config.Params := ⟨18000, 20, true⟩
    p.wellFormed = true ∧ (given .startLow 0 17999 true).acquireDuty ∧ (given .startHigh 0 19 true).acquireDuty ∧
    (given .startLow 0 17999 true).sample.rst = false ∧
    ((17999 : Time) - (given .startLow 0 17999 true).t0).toNat < 18000 ∧
    ((19 : Time) - (given .startHigh 0 19 true).t0).toNat < 20 := by decide

end Sys2Proof.Tests
end

/-! The variant machine: its step at the spec's parameters is the machine's, and its two holds outlast the source's
minima. -/

namespace Sys2Proof.Machine

/-! What the machine does, said once -/

/-- 30_encoding.md R89: without reset, every STATE but IDLE selects its own row. -/
theorem State.currentInstr_of_busy {s : State} (hrst : s.sample.rst = false) (hbusy : s.state ≠ .idle) :
    s.currentInstr = instrOfState s.state := by
  cases hs : s.state with
  | idle => exact absurd hs hbusy
  | _ => simp [State.currentInstr, decodeStep, hrst, hs, instrOfState]

/-- A hold before its time stays (40_busy_wait.md R102). -/
theorem State.hold_of_lt {d : Nat} {s : State} (complete : State → State) (h : s.elapsedUs < d) :
    s.hold d complete = s.clearDone := by
  obtain ⟨hd, -⟩ | ⟨-, hstay⟩ := s.hold_cases d complete
  · omega
  · exact hstay

/-! What the variant does -/

/-- The ranges of 00_scope.md R7, as inequalities. -/
theorem paramsWellFormed_iff (p : Config.Params) :
    p.wellFormed = true ↔
      Config.T_START_LOW_MIN ≤ p.tStartLow ∧ Config.T_START_HIGH_MIN ≤ p.tStartHigh ∧
        p.tStartHigh ≤ Config.T_START_HIGH_MAX := by
  simp only [Config.Params.wellFormed, Bool.and_eq_true, decide_eq_true_eq, and_assoc]

/-- At the spec's parameters an operation does to the block what the machine's does, and leaves the variant's own bit
false (92_eei_decisions.md D4, D5, D8). -/
theorem variantEffect_specParams (i : Instr) (s : State) :
    variantEffect Config.specParams i ⟨s, false⟩ = ⟨effect i s, false⟩ := by
  cases i <;> rfl

/-- At the spec's parameters a step leaves the block as the machine's step does. -/
theorem variantStep_specParams (s : State) :
    variantStep Config.specParams ⟨s, false⟩ = ⟨(effect s.currentInstr s).advance, false⟩ := by
  simp only [variantStep, variantEffect_specParams]

/-- Without reset, a busy variant machine runs STATE's row (30_encoding.md R89). -/
theorem variantStep_block_of_busy (p : Config.Params) {v : VariantState} (hrst : v.block.sample.rst = false)
    (hbusy : v.block.state ≠ .idle) :
    (variantStep p v).block = (variantEffect p (instrOfState v.block.state) v).block.advance := by
  simp only [variantStep, State.currentInstr_of_busy hrst hbusy]

/-- START_LOW before the parameter's time stays (42_frame_reader.md R144). -/
theorem variantStep_block_of_startLow_lt {p : Config.Params} {v : VariantState}
    (hrst : v.block.sample.rst = false) (hstate : v.block.state = .startLow)
    (h : v.block.elapsedUs < p.tStartLow) : (variantStep p v).block = v.block.clearDone.advance := by
  have hstay : v.block.startLowStep p.tStartLow = v.block.clearDone := State.hold_of_lt _ h
  rw [variantStep_block_of_busy p hrst (by simp [hstate]), hstate]
  simp only [instrOfState, variantEffect, hstay]

/-- START_HIGH before the parameter's time stays (42_frame_reader.md R145). -/
theorem variantStep_block_of_startHigh_lt {p : Config.Params} {v : VariantState}
    (hrst : v.block.sample.rst = false) (hstate : v.block.state = .startHigh)
    (h : v.block.elapsedUs < p.tStartHigh) : (variantStep p v).block = v.block.clearDone.advance := by
  have hstay : v.block.startHighStep p.tStartHigh = v.block.clearDone := State.hold_of_lt _ h
  rw [variantStep_block_of_busy p hrst (by simp [hstate]), hstate]
  simp only [instrOfState, variantEffect, hstay]

/-! The statements -/

/-- Settles O45: both machines step to the selected operation's effect. -/
theorem variantAtSpecParamsIsTheMachine : Obligations.VariantAtSpecParamsIsTheMachine := by
  intro s t _
  rw [step_next_iff, variantStep_specParams, VariantState.mk.injEq]
  simp only [and_true, eq_comm]

/-- Settles O47: an elapsed time below the source's minimum is below the parameter, so the hold stays. -/
theorem variantHoldsLastSourceMinimum : Obligations.VariantHoldsLastSourceMinimum := by
  intro p v hp _ hrst
  obtain ⟨hlow, hhigh, -⟩ := (paramsWellFormed_iff p).mp hp
  constructor
  · intro hstate helapsed
    have hstay := variantStep_block_of_startLow_lt hrst hstate (lt_of_lt_of_le helapsed hlow)
    simp [hstay, hstate]
  · intro hstate helapsed
    have hstay := variantStep_block_of_startHigh_lt hrst hstate (lt_of_lt_of_le helapsed hhigh)
    simp [hstay, hstate]

end Sys2Proof.Machine

/-! What a step keeps: which registers each operation writes, what sequencing reads, when DONE is 1, the invariants of
10_state.md R45, and the status word. -/

namespace Sys2Proof.Machine

/-! acceptAcquire, register by register (42_frame_reader.md R142) -/

@[simp] theorem State.acceptAcquire_state (s : State) : s.acceptAcquire.state = FsmState.startLow := rfl
@[simp] theorem State.acceptAcquire_frame (s : State) : s.acceptAcquire.frame = 0 := rfl
@[simp] theorem State.acceptAcquire_bitcount (s : State) : s.acceptAcquire.bitcount = 0 := rfl
@[simp] theorem State.acceptAcquire_t0 (s : State) : s.acceptAcquire.t0 = s.now := rfl
@[simp] theorem State.acceptAcquire_outcome (s : State) : s.acceptAcquire.outcome = OutcomeCode.none := rfl
@[simp] theorem State.acceptAcquire_valid (s : State) : s.acceptAcquire.valid = false := rfl
@[simp] theorem State.acceptAcquire_done (s : State) : s.acceptAcquire.done = false := rfl
@[simp] theorem State.acceptAcquire_lineOe (s : State) : s.acceptAcquire.lineOe = true := rfl
@[simp] theorem State.acceptAcquire_lineOut (s : State) : s.acceptAcquire.lineOut = false := rfl
@[simp] theorem State.acceptAcquire_humR (s : State) : s.acceptAcquire.humR = 0 := rfl
@[simp] theorem State.acceptAcquire_tempR (s : State) : s.acceptAcquire.tempR = 0 := rfl
@[simp] theorem State.acceptAcquire_tempX10R (s : State) : s.acceptAcquire.tempX10R = 0 := rfl
@[simp] theorem State.acceptAcquire_samples (s : State) : s.acceptAcquire.samples = s.samples := rfl
@[simp] theorem State.acceptAcquire_tick (s : State) : s.acceptAcquire.tick = s.tick := rfl

/-! takeBit (41_bit_decoder.md R122) -/

@[simp] theorem State.takeBit_done (s : State) : s.takeBit.done = false := rfl
@[simp] theorem State.takeBit_lineOe (s : State) : s.takeBit.lineOe = s.lineOe := rfl
@[simp] theorem State.takeBit_lineOut (s : State) : s.takeBit.lineOut = s.lineOut := rfl

/-- The fall ends the 40th bit or the bit before it. -/
theorem State.takeBit_state (s : State) :
    s.takeBit.state = .validate ∧ s.bitcount.toNat + 1 = Config.N_BITS ∨
    s.takeBit.state = .bitHigh ∧ s.bitcount.toNat + 1 ≠ Config.N_BITS := by
  by_cases hlast : s.bitcount.toNat + 1 = Config.N_BITS
  · exact .inl ⟨by simp [State.takeBit, hlast], hlast⟩
  · exact .inr ⟨by simp [State.takeBit, hlast], hlast⟩

theorem State.takeBit_bitcount {s : State} (hlt : s.bitcount.toNat < Config.N_BITS) :
    s.takeBit.bitcount.toNat = s.bitcount.toNat + 1 := by
  have : s.bitcount.toNat + 1 < 64 := by simp only [Config.N_BITS] at hlt; omega
  simp [State.takeBit, BitVec.toNat_add, Nat.mod_eq_of_lt this]

/-! The operation of a STATE row (30_encoding.md R85, R89) -/

theorem instrOfState_injective : Function.Injective instrOfState := by
  intro q r h
  cases q <;> cases r <;> simp_all [instrOfState]

theorem instrOfState_ne_rst (q : FsmState) : instrOfState q ≠ .rst := by
  cases q <;> decide

theorem decodeCmd_ne_instrOfState (c : BitVec 2) (q : FsmState) : decodeCmd c ≠ instrOfState q := by
  revert c
  cases q <;> decide

/-- A STATE row is performed only in its STATE. -/
theorem State.state_of_currentInstr {s : State} {q : FsmState} (h : s.currentInstr = instrOfState q) :
    s.state = q := by
  cases hrst : s.sample.rst with
  | true =>
    have hi : s.currentInstr = .rst := by simp [State.currentInstr, decodeStep, hrst]
    exact absurd (h.symm.trans hi) (instrOfState_ne_rst q)
  | false =>
    by_cases hs : s.state = .idle
    · have hi : s.currentInstr = decodeCmd s.sample.cmd := by simp [State.currentInstr, decodeStep, hrst, hs]
      exact absurd (hi.symm.trans h) (decodeCmd_ne_instrOfState _ q)
    · rw [State.currentInstr_of_busy hrst hs] at h
      exact instrOfState_injective h

/-! The level waits (40_busy_wait.md R103) -/

/-- Every wait state reads the line, and its timeout is a failure (40_busy_wait.md R103). -/
theorem awaited_timeout {q : FsmState} {l : Bool} {o : OutcomeCode} (h : awaited q = some (l, o)) :
    readsLine q = true ∧ o ≠ .none ∧ o ≠ .success := by
  cases q <;> simp only [awaited, Option.some.injEq, Prod.mk.injEq, reduceCtorEq] at h <;> simp [← h, readsLine]

theorem instrOfState_of_awaited {q : FsmState} {l : Bool} {o : OutcomeCode} (h : awaited q = some (l, o)) :
    instrOfState q = .hsLow ∨ instrOfState q = .hsHigh ∨ instrOfState q = .bitHigh ∨ instrOfState q = .bitLow := by
  cases q <;> simp [awaited, instrOfState] at h ⊢

/-! What an operation can leave, said once for the machine and its variant -/

/-- The moves of a level wait that sees its level and waits on: 42_frame_reader.md R147, R148, 41_bit_decoder.md R121,
and the variant's extra low wait, during which STATE stays HS_HIGH (log entry 10). -/
def waitMoves : List (FsmState × FsmState) :=
  [(.hsLow, .hsHigh), (.hsHigh, .hsHigh), (.hsHigh, .bitHigh), (.bitHigh, .bitLow)]

theorem waitMoves_cases {q r : FsmState} (h : (q, r) ∈ waitMoves) :
    q = .hsLow ∧ r = .hsHigh ∨ q = .hsHigh ∧ r = .hsHigh ∨ q = .hsHigh ∧ r = .bitHigh ∨
    q = .bitHigh ∧ r = .bitLow := by
  simpa [waitMoves] using h

/-- The states that operation `i` can leave the block in, whatever the hold times and the time. -/
inductive State.Leaves (s : State) : Instr → State → Prop
  | reset : s.Leaves .rst s.resetStep
  | accept {i : Instr} (hi : i = .acquire ∨ i = .idle) : s.Leaves i s.acceptAcquire
  | stay {i : Instr} (hi : i ≠ .rst ∧ i ≠ .acquire ∧ i ≠ .validate) : s.Leaves i s.clearDone
  | endLowHold : s.Leaves .startLow ({ s with lineOut := true }.enter .startHigh)
  | endHighHold : s.Leaves .startHigh (s.release.enter .hsLow)
  | proceed {q r : FsmState} (hqr : (q, r) ∈ waitMoves) : s.Leaves (instrOfState q) (s.enter r)
  | takeBit : s.Leaves .bitLow s.takeBit
  | timeout {q : FsmState} {l : Bool} {o : OutcomeCode} (hq : awaited q = some (l, o)) :
      s.Leaves (instrOfState q) (s.finish o)
  | publish (hsum : checksumOk s.frame = true) : s.Leaves .validate (s.publish.finish .success)
  | mismatch (hsum : checksumOk s.frame = false) : s.Leaves .validate (s.finish .checksumMismatch)

theorem State.Leaves.hold {s : State} {i : Instr} (d : Nat) {complete : State → State}
    (hcomplete : s.Leaves i (complete s)) (hstay : s.Leaves i s.clearDone) : s.Leaves i (s.hold d complete) := by
  obtain ⟨-, h⟩ | ⟨-, h⟩ := s.hold_cases d complete
  · rwa [h]
  · rwa [h]

theorem State.Leaves.waitLevel {s : State} {q : FsmState} {l : Bool} {o : OutcomeCode} (limit : Nat)
    {success : State → State} (hq : awaited q = some (l, o)) (hsuccess : s.Leaves (instrOfState q) (success s)) :
    s.Leaves (instrOfState q) (s.waitLevel l limit o success) := by
  obtain ⟨-, h⟩ | ⟨-, -, h⟩ | ⟨-, -, h⟩ := s.waitLevel_cases l limit o success
  · rwa [h]
  · rw [h]
    exact .timeout hq
  · rw [h]
    refine .stay ?_
    obtain hi | hi | hi | hi := instrOfState_of_awaited hq <;> simp [hi]

theorem State.leaves_startLowStep (d : Nat) (s : State) : s.Leaves .startLow (s.startLowStep d) :=
  .hold (complete := fun s => { s with lineOut := true }.enter .startHigh) d .endLowHold (.stay (by decide))

theorem State.leaves_startHighStep (d : Nat) (s : State) : s.Leaves .startHigh (s.startHighStep d) :=
  .hold (complete := fun s => s.release.enter .hsLow) d .endHighHold (.stay (by decide))

theorem State.leaves_validateStep (s : State) : s.Leaves .validate s.validateStep := by
  obtain ⟨hsum, h⟩ | ⟨hsum, h⟩ := s.validateStep_cases
  · exact h ▸ .publish hsum
  · exact h ▸ .mismatch hsum

/-- Both waits of the variant's HS_HIGH succeed, time out or stay as a wait of the machine does (92_eei_decisions.md
D8). -/
theorem VariantState.leaves_alignedHsHigh (v : VariantState) : v.block.Leaves .hsHigh v.alignedHsHigh.block := by
  have htimeout : v.block.Leaves .hsHigh (v.block.finish .timeoutHsHigh) := .timeout (q := .hsHigh) rfl
  have hstay : v.block.Leaves .hsHigh v.block.clearDone := .stay (by decide)
  unfold VariantState.alignedHsHigh
  split
  · split
    · exact .proceed (q := .hsHigh) (by decide)
    · split <;> assumption
  · split
    · exact .proceed (q := .hsHigh) (by decide)
    · split <;> assumption

/-- Inversion of an operation of the variant machine. -/
theorem variantEffect_leaves (p : Config.Params) (i : Instr) (v : VariantState) :
    v.block.Leaves i (variantEffect p i v).block := by
  cases i with
  | rst => exact .reset
  | acquire => exact .accept (.inl rfl)
  | nop => exact .stay (by decide)
  | reservedCmd2 => exact .stay (by decide)
  | reservedCmd3 => exact .stay (by decide)
  | idle =>
    simp only [variantEffect]
    split
    · exact .accept (.inr rfl)
    · exact .stay (by decide)
  | startLow => exact v.block.leaves_startLowStep p.tStartLow
  | startHigh => exact v.block.leaves_startHighStep p.tStartHigh
  | hsLow => exact .waitLevel (q := .hsLow) _ rfl (.proceed (by decide))
  | hsHigh =>
    simp only [variantEffect]
    split
    · exact v.leaves_alignedHsHigh
    · exact .waitLevel (q := .hsHigh) _ rfl (.proceed (by decide))
  | bitHigh => exact .waitLevel (q := .bitHigh) _ rfl (.proceed (by decide))
  | bitLow => exact .waitLevel (q := .bitLow) _ rfl .takeBit
  | validate => exact v.block.leaves_validateStep

/-- Inversion of an operation of the machine, the variant at the spec's parameters. -/
theorem effect_leaves (i : Instr) (s : State) : s.Leaves i (effect i s) := by
  simpa only [variantEffect_specParams] using variantEffect_leaves Config.specParams i ⟨s, false⟩

/-! The invariants of R45 -/

/-- No name stands for a reserved code (30_encoding.md R87). -/
theorem outcomeCode_not_reserved (o : OutcomeCode) : o.code ≠ 0b110 ∧ o.code ≠ 0b111 := by
  cases o <;> decide

theorem State.reset_inv : State.reset.Inv where
  driving := by decide
  drivenLow := by decide
  validOutcome := by decide
  noReading := by decide
  busyOutcome := by decide
  countBound := by decide
  countReading := by decide
  countValidate := by decide
  countStart := by decide
  frameUnread := by simp [State.reset]
  outcomeCode := by decide
  doneIdle := by decide

/-- The invariants say nothing of the samples. -/
theorem State.Inv.advance {s : State} (h : s.Inv) : s.advance.Inv := { h with }

theorem State.resetStep_inv (s : State) : s.resetStep.Inv := { State.reset_inv with }

theorem State.Inv.clearDone {s : State} (h : s.Inv) : s.clearDone.Inv := { h with doneIdle := by simp }

theorem State.acceptAcquire_inv (s : State) : s.acceptAcquire.Inv where
  driving := by simp
  drivenLow := by simp
  validOutcome := by simp
  noReading := by simp
  busyOutcome := by simp
  countBound := by simp
  countReading := by simp
  countValidate := by simp
  countStart := by simp
  frameUnread := by simp
  outcomeCode := outcomeCode_not_reserved _
  doneIdle := by simp

/-- R45 items 1, 2 and 5 once the start signal is over and the acquisition is not. -/
theorem State.Inv.afterStart {s : State} (h : s.Inv) (hs : readsLine s.state = true ∨ s.state = .validate) :
    s.lineOe = false ∧ s.lineOut = true ∧ s.outcome = .none ∧ s.valid = false := by
  have hstate : s.state ≠ .idle ∧ s.state ≠ .startLow ∧ s.state ≠ .startHigh := by
    cases hq : s.state <;> simp [hq, readsLine] at hs ⊢
  obtain ⟨hidle, hlow, hhigh⟩ := hstate
  have hoe := h.driving
  have hout := h.drivenLow
  exact ⟨by simpa [hlow, hhigh] using hoe, by simpa [hlow] using hout, h.busyOutcome hidle⟩

theorem State.Inv.endLowHold {s : State} (h : s.Inv) (hs : s.state = .startLow) :
    ({ s with lineOut := true }.enter .startHigh).Inv :=
  { h with
    driving := by simpa [hs] using h.driving
    drivenLow := by simp
    busyOutcome := fun _ => h.busyOutcome (by simp [hs])
    countReading := by simp
    countValidate := by simp
    countStart := fun _ => h.countStart (.inl hs)
    doneIdle := by simp }

theorem State.Inv.endHighHold {s : State} (h : s.Inv) (hs : s.state = .startHigh) : (s.release.enter .hsLow).Inv :=
  { h with
    driving := by simp
    drivenLow := by simpa [hs] using h.drivenLow
    busyOutcome := fun _ => h.busyOutcome (by simp [hs])
    countReading := by simp
    countValidate := by simp
    countStart := fun _ => h.countStart (.inr (.inl hs))
    doneIdle := by simp }

/-- Where a level wait goes on, BITCOUNT stays: 0 until the first bit's wait, below N_BITS after it. -/
theorem State.Inv.proceed {s : State} {r : FsmState} (h : s.Inv) (hsr : (s.state, r) ∈ waitMoves) :
    (s.enter r).Inv := by
  have hN : 0 < Config.N_BITS := by decide
  have hmove : readsLine s.state = true ∧
      ((r = .hsHigh ∨ r = .bitHigh) ∧ s.bitcount.toNat = 0 ∨ r = .bitLow ∧ s.bitcount.toNat < Config.N_BITS) := by
    obtain ⟨hs, hr⟩ | ⟨hs, hr⟩ | ⟨hs, hr⟩ | ⟨hs, hr⟩ := waitMoves_cases hsr
    · exact ⟨by simp [hs, readsLine], .inl ⟨.inl hr, h.countStart (by simp [hs])⟩⟩
    · exact ⟨by simp [hs, readsLine], .inl ⟨.inl hr, h.countStart (by simp [hs])⟩⟩
    · exact ⟨by simp [hs, readsLine], .inl ⟨.inr hr, h.countStart (by simp [hs])⟩⟩
    · exact ⟨by simp [hs, readsLine], .inr ⟨hr, h.countReading (.inl hs)⟩⟩
  obtain ⟨hreads, hcount⟩ := hmove
  obtain ⟨hoe, hout, hresult⟩ := h.afterStart (.inl hreads)
  obtain ⟨rfl | rfl, hcount⟩ | ⟨rfl, hcount⟩ := hcount
  all_goals exact { h with
    driving := by simp [hoe]
    drivenLow := by simp [hout]
    busyOutcome := fun _ => hresult
    countReading := by simp [hcount, hN]
    countValidate := by simp
    countStart := by simp [hcount]
    doneIdle := by simp }

theorem State.Inv.finish {s : State} {o : OutcomeCode} (h : s.Inv)
    (hs : readsLine s.state = true ∨ s.state = .validate) (ho : o ≠ .none ∧ o ≠ .success) : (s.finish o).Inv := by
  obtain ⟨hoe, hout, -, hvalid⟩ := h.afterStart hs
  exact { h with
    driving := by simp [hoe]
    drivenLow := by simp [hout]
    validOutcome := by simp [hvalid, ho]
    busyOutcome := by simp
    countReading := by simp
    countValidate := by simp
    countStart := by simp
    outcomeCode := outcomeCode_not_reserved o
    doneIdle := fun _ => ⟨rfl, ho.1⟩ }

theorem State.Inv.publish_finish {s : State} (h : s.Inv) (hs : s.state = .validate) :
    (s.publish.finish .success).Inv := by
  obtain ⟨hoe, hout, -⟩ := h.afterStart (.inr hs)
  exact { h with
    driving := by simp [hoe]
    drivenLow := by simp [hout]
    validOutcome := by simp
    noReading := by simp
    busyOutcome := by simp
    countReading := by simp
    countValidate := by simp
    countStart := by simp
    outcomeCode := outcomeCode_not_reserved _
    doneIdle := by simp }

/-- R45 item 7 after a bit: the bit placed at BITCOUNT is not one of those still to come. -/
theorem State.Inv.takeBit_frameUnread {s : State} (h : s.Inv) (hlt : s.bitcount.toNat < Config.N_BITS) (i : Nat)
    (hi : s.bitcount.toNat + 1 ≤ i) (hiN : i < Config.N_BITS) :
    s.takeBit.frame.getLsbD (Config.N_BITS - 1 - i) = false := by
  have hunread := h.frameUnread i (by omega) hiN
  have hother : Config.N_BITS - 1 - i ≠ 39 - s.bitcount.toNat := by
    simp only [Config.N_BITS] at hiN ⊢
    omega
  simp only [State.takeBit, placeBit_getLsbD _ _ _ hlt, hunread, hother, decide_false, Bool.and_false, Bool.or_false]

/-- After the fall BITCOUNT is N_BITS in VALIDATE and below it in BIT_HIGH. -/
theorem State.Inv.takeBit {s : State} (h : s.Inv) (hs : s.state = .bitLow) : s.takeBit.Inv := by
  obtain ⟨hoe, hout, hresult⟩ := h.afterStart (.inl (by simp [hs, readsLine]))
  have hlt := h.countReading (.inr hs)
  have hcount := s.takeBit_bitcount hlt
  have hfit : s.takeBit.state = .validate ∧ s.takeBit.bitcount.toNat = Config.N_BITS ∨
      s.takeBit.state = .bitHigh ∧ s.takeBit.bitcount.toNat < Config.N_BITS := by
    obtain ⟨hst, hlast⟩ | ⟨hst, hlast⟩ := s.takeBit_state
    · exact .inl ⟨hst, by omega⟩
    · exact .inr ⟨hst, by omega⟩
  obtain ⟨hst, hfit⟩ | ⟨hst, hfit⟩ := hfit
  all_goals exact { h with
    driving := by simp [hst, hoe]
    drivenLow := by simp [hst, hout]
    busyOutcome := fun _ => hresult
    countBound := by omega
    countReading := by simp [hst, hfit]
    countValidate := by simp [hst, hfit]
    countStart := by simp [hst]
    frameUnread := fun i hi => h.takeBit_frameUnread hlt i (hcount ▸ hi)
    doneIdle := by simp }

/-- The selected operation, of the machine or of its variant, keeps the invariants. -/
theorem State.Leaves.inv {s t : State} (hl : s.Leaves s.currentInstr t) (h : s.Inv) : t.Inv := by
  have hrow : ∀ {q : FsmState}, s.currentInstr = instrOfState q → s.state = q := State.state_of_currentInstr
  generalize s.currentInstr = i at hl hrow
  cases hl with
  | reset => exact s.resetStep_inv
  | accept => exact s.acceptAcquire_inv
  | stay => exact h.clearDone
  | endLowHold => exact h.endLowHold (hrow (q := .startLow) rfl)
  | endHighHold => exact h.endHighHold (hrow (q := .startHigh) rfl)
  | proceed hqr => exact h.proceed (hrow rfl ▸ hqr)
  | takeBit => exact h.takeBit (hrow (q := .bitLow) rfl)
  | timeout hq =>
    obtain ⟨hreads, ho⟩ := awaited_timeout hq
    exact h.finish (.inl (hrow rfl ▸ hreads)) ho
  | publish => exact h.publish_finish (hrow (q := .validate) rfl)
  | mismatch => exact h.finish (.inr (hrow (q := .validate) rfl)) (by decide)

/-! DONE -/

/-- Outside reset and IDLE an operation sets DONE exactly if it leaves the block in IDLE (10_state.md R32). -/
theorem State.Leaves.done_iff {s t : State} {i : Instr} (hl : s.Leaves i t) (hi : i ≠ .rst) (hs : s.state ≠ .idle) :
    t.done = true ↔ t.state = .idle := by
  cases hl with
  | reset => exact absurd rfl hi
  | accept => simp
  | stay => simp [hs]
  | endLowHold => simp
  | endHighHold => simp
  | proceed hqr =>
    obtain ⟨-, rfl⟩ | ⟨-, rfl⟩ | ⟨-, rfl⟩ | ⟨-, rfl⟩ := waitMoves_cases hqr <;> simp
  | takeBit =>
    obtain ⟨hst, -⟩ | ⟨hst, -⟩ := s.takeBit_state <;> simp [hst]
  | timeout => simp
  | publish => simp
  | mismatch => simp

/-- After every step DONE is 1 exactly if the step called `finish` (10_state.md R32). -/
theorem step_done_iff {s t : State} (hstep : step s = .next t) :
    t.done = true ↔ s.sample.rst = false ∧ s.state ≠ .idle ∧ t.state = .idle := by
  rw [step_next_iff] at hstep
  subst hstep
  cases hr : s.sample.rst with
  | true => simp [effect_currentInstr, hr, State.resetStep, State.reset]
  | false =>
    by_cases hs : s.state = .idle
    · simp only [effect_currentInstr, hr, hs, Bool.false_eq_true, if_false]
      split <;> simp [State.noRequest]
    · have hi : s.currentInstr ≠ .rst := by
        rw [State.currentInstr_of_busy hr hs]
        exact instrOfState_ne_rst _
      simpa [hs] using (effect_leaves s.currentInstr s).done_iff hi hs

/-! The registers that sequence the block -/

/-- The registers that a step's successor state and drive are read from: all but the flags and the reading words. -/
def State.sequencing (s : State) : FsmState × Frame × BitVec 6 × Time × Bool × Bool :=
  (s.state, s.frame, s.bitcount, s.t0, s.lineOe, s.lineOut)

/-- The state with other flags and reading words. -/
def State.withFlags (o : OutcomeCode) (v d : Bool) (h p x : Half) (s : State) : State :=
  { s with outcome := o, valid := v, done := d, humR := h, tempR := p, tempX10R := x }

/-- What `f` reads of a hold's result: holds that end alike and stay alike, at the same elapsed time, give `f` the same. -/
theorem State.hold_congr {α : Type} (f : State → α) (d : Nat) {complete : State → State} {s u : State}
    (helapsed : u.elapsedUs = s.elapsedUs) (hcomplete : f (complete u) = f (complete s))
    (hstay : f u.clearDone = f s.clearDone) : f (u.hold d complete) = f (s.hold d complete) := by
  simp only [State.hold, helapsed, apply_ite f, hcomplete, hstay]

theorem State.waitLevel_congr {α : Type} (f : State → α) (l : Bool) (limit : Nat) (o : OutcomeCode)
    {success : State → State} {s u : State} (hlevel : u.level = s.level) (helapsed : u.elapsedUs = s.elapsedUs)
    (hsuccess : f (success u) = f (success s)) (htimeout : f (u.finish o) = f (s.finish o))
    (hstay : f u.clearDone = f s.clearDone) :
    f (u.waitLevel l limit o success) = f (s.waitLevel l limit o success) := by
  simp only [State.waitLevel, hlevel, helapsed, apply_ite f, hsuccess, htimeout, hstay]

/-- Both results of VALIDATE move STATE to IDLE and keep the other sequencing registers (42_frame_reader.md R150). -/
theorem State.validateStep_sequencing (s : State) :
    s.validateStep.sequencing = { s with state := .idle }.sequencing := by
  obtain ⟨-, h⟩ | ⟨-, h⟩ := s.validateStep_cases <;> rw [h] <;> rfl

theorem effect_withFlags_sequencing (o : OutcomeCode) (v d : Bool) (h p x : Half) (i : Instr) (s : State) :
    (effect i (s.withFlags o v d h p x)).sequencing = (effect i s).sequencing := by
  cases i with
  | rst | nop | acquire | reservedCmd2 | reservedCmd3 => rfl
  | idle =>
    simp only [effect, apply_ite State.sequencing]
    rfl
  | startLow | startHigh => exact State.hold_congr State.sequencing _ rfl rfl rfl
  | hsLow | hsHigh | bitHigh | bitLow => exact State.waitLevel_congr State.sequencing _ _ _ rfl rfl rfl rfl rfl
  | validate => exact (State.validateStep_sequencing _).trans (State.validateStep_sequencing s).symm

/-! The status word -/

/-- A field of the status word, read bit by bit. -/
theorem State.status_field_eq {s : State} {a w : Nat} {x : BitVec w}
    (h : ∀ i < w, s.status.getLsbD (a + i) = x.getLsbD i) : s.status.extractLsb' a w = x := by
  apply BitVec.eq_of_getLsbD_eq
  intro i hi
  simp only [BitVec.getLsbD_extractLsb', hi, decide_true, Bool.true_and, h i hi]

/-! The statements -/

/-- Settles O46: whatever the parameters, the selected operation leaves one of the states of `State.Leaves`. -/
theorem variantStepKeepsInvariant : Obligations.VariantStepKeepsInvariant :=
  fun p v _ h => ((variantEffect_leaves p v.block.currentInstr v).inv h).advance

/-- Settles O29: the operation that rst, STATE and cmd select keeps the invariants, and the next sample is none of
theirs. -/
theorem stepKeepsInvariant : Obligations.StepKeepsInvariant := by
  intro s t _ h hstep
  rw [step_next_iff] at hstep
  subst hstep
  exact ((effect_leaves s.currentInstr s).inv h).advance

/-- Settles O19: of each state an operation can leave, the registers that differ are the ones its row writes. -/
theorem registersHaveOnlyTheirWriters : Obligations.RegistersHaveOnlyTheirWriters := by
  intro i s t h
  obtain rfl : effect i s = t := by simpa [exec_eq_effect] using h
  have hleaves := effect_leaves i s
  generalize effect i s = t at hleaves
  cases hleaves with
  | reset => simp [State.resetStep, State.reset]
  | accept hi => obtain rfl | rfl := hi <;> simp
  | stay => simp
  | endLowHold => simp
  | endHighHold => simp
  | proceed hqr =>
    obtain ⟨rfl, rfl⟩ | ⟨rfl, rfl⟩ | ⟨rfl, rfl⟩ | ⟨rfl, rfl⟩ := waitMoves_cases hqr <;> simp [instrOfState]
  | takeBit => simp [State.takeBit]
  | timeout hq => obtain h | h | h | h := instrOfState_of_awaited hq <;> simp [h]
  | publish => simp
  | mismatch => simp

/-- Settles O25: the same operation is selected, and it leaves the sequencing registers alike. -/
theorem flagsDoNotAffectSequencing : Obligations.FlagsDoNotAffectSequencing := by
  intro s t o v d h p x _ hstep
  rw [step_next_iff] at hstep
  subst hstep
  refine ⟨_, step_eq_effect _, ?_⟩
  have hseq := effect_withFlags_sequencing o v d h p x s.currentInstr s
  simp only [State.sequencing, Prod.mk.injEq] at hseq
  exact hseq

/-- Settles O26: a step from DONE = 1, and so from IDLE, calls no `finish`. -/
theorem doneIsOneStepPulse : Obligations.DoneIsOneStepPulse := by
  refine ⟨fun s t _ => step_done_iff, ?_⟩
  intro s t _ hinv hstep hdone
  obtain ⟨hidle, -⟩ := hinv.doneIdle hdone
  rw [← Bool.not_eq_true, step_done_iff hstep]
  exact fun ⟨_, hbusy, _⟩ => hbusy hidle

/-- Settles O17: the status word's bits are those of the fields in R38's places. -/
theorem statusAndPortsCopyRegisters : Obligations.StatusAndPortsCopyRegisters := by
  intro s
  refine ⟨s.status_getLsbD 0, s.status_getLsbD 1, s.status_getLsbD 2, ?outcome, ?state, ?bitcount, ?reserved, rfl⟩
  case outcome => exact State.status_field_eq fun i hi => by rw [State.status_getLsbD]; grind
  case state => exact State.status_field_eq fun i hi => by rw [State.status_getLsbD]; grind
  case bitcount => exact State.status_field_eq fun i hi => by rw [State.status_getLsbD]; grind
  case reserved => rw [State.status_getLsbD]; simp

/-- Settles O28: the reset state is in IDLE, with every count and word 0 and no outcome. -/
theorem resetMeetsInvariant : Obligations.ResetMeetsInvariant :=
  ⟨State.reset_inv, ⟨by decide, by decide, by decide, by decide⟩, by decide⟩

end Sys2Proof.Machine

/-! The line and the frame (20_memory.md R63, R66): which operations read the line level, and what forty pulses
leave. -/

namespace Sys2Proof.Machine

/-! The line level (20_memory.md R63) -/

/-- An operation other than the four waits leaves the same at either line level. -/
theorem effect_advance_lineIn {i : Instr} (hi : ∀ q, i = instrOfState q → readsLine q = false) (s : State)
    (x : Sample) (xs : List Sample) (l : Bool) :
    (effect i (s.placing ({ x with lineIn := l } :: xs))).advance = (effect i (s.placing (x :: xs))).advance := by
  cases i with
  | rst | nop | acquire | reservedCmd2 | reservedCmd3 => rfl
  | idle =>
    simp only [effect, apply_ite State.advance]
    rfl
  | startLow | startHigh => exact State.hold_congr State.advance _ rfl rfl rfl
  | hsLow => exact absurd (hi .hsLow rfl) (by decide)
  | hsHigh => exact absurd (hi .hsHigh rfl) (by decide)
  | bitHigh => exact absurd (hi .bitHigh rfl) (by decide)
  | bitLow => exact absurd (hi .bitLow rfl) (by decide)
  | validate =>
    simp only [effect, State.validateStep, apply_ite State.advance]
    rfl

/-! DONE is never read -/

/-- Every operation writes DONE and none reads it (10_state.md R32, R41). -/
theorem effect_clearDone (i : Instr) (s : State) : effect i s.clearDone = effect i s := by
  cases i with
  | rst | nop | acquire | reservedCmd2 | reservedCmd3 | idle => rfl
  | startLow | startHigh => exact State.hold_congr id _ rfl rfl rfl
  | hsLow | hsHigh | bitHigh | bitLow => exact State.waitLevel_congr id _ _ _ rfl rfl rfl rfl rfl
  | validate => rfl

/-- So a run of one step or more forgets DONE. -/
theorem run_clearDone (n : Nat) (s : State) : run (n + 1) s.clearDone = run (n + 1) s := by
  have hinstr : s.clearDone.currentInstr = s.currentInstr := rfl
  rw [run_succ_effect, run_succ_effect, hinstr, effect_clearDone]

/-! Steps of a busy block without reset -/

/-- The step of a STATE row (30_encoding.md R89). -/
theorem step_of_busy {s : State} (hrst : s.sample.rst = false) (hbusy : s.state ≠ .idle) :
    step s = .next (effect (instrOfState s.state) s).advance := by
  rw [step_eq_effect, State.currentInstr_of_busy hrst hbusy]

/-- The row of a wait state is a level wait of 100 us (40_busy_wait.md R103). -/
theorem effect_of_awaited {q : FsmState} {l : Bool} {o : OutcomeCode} (h : awaited q = some (l, o)) :
    ∃ success, ∀ s, effect (instrOfState q) s = s.waitLevel l 100 o success := by
  cases q <;> simp only [awaited, Option.some.injEq, Prod.mk.injEq, reduceCtorEq] at h
  all_goals
    obtain ⟨rfl, rfl⟩ := h
    exact ⟨_, fun _ => rfl⟩

theorem State.waitLevel_of_level {l : Bool} (limit : Nat) (o : OutcomeCode) (success : State → State) {s : State}
    (h : s.level = l) : s.waitLevel l limit o success = success s := by
  simp [State.waitLevel, h]

/-- A poll at the other level, in time, stays (40_busy_wait.md R103). -/
theorem step_poll {s : State} {l : Bool} {o : OutcomeCode} (hwait : awaited s.state = some (l, o))
    (hrst : s.sample.rst = false) (hlevel : s.level = !l) (htime : s.elapsedUs ≤ 100) :
    step s = .next s.clearDone.advance := by
  have hbusy : s.state ≠ .idle := by
    intro hidle
    simp [hidle, awaited] at hwait
  obtain ⟨success, heffect⟩ := effect_of_awaited hwait
  rw [step_of_busy hrst hbusy, heffect]
  obtain ⟨h, -⟩ | ⟨-, h, -⟩ | ⟨-, -, h⟩ := s.waitLevel_cases l 100 o success
  · simp [hlevel] at h
  · omega
  · rw [h]

/-- BIT_HIGH at the rise (41_bit_decoder.md R121). -/
theorem step_rise {s : State} (hstate : s.state = .bitHigh) (hedge : edge true s.sample) :
    step s = .next (s.enter .bitLow).advance := by
  obtain ⟨hrst, hlevel⟩ := hedge
  have hrise : s.bitHighStep = s.enter .bitLow := State.waitLevel_of_level _ _ _ hlevel
  rw [step_of_busy hrst (by simp [hstate]), hstate, instrOfState, effect, hrise]

/-- BIT_LOW at the fall (41_bit_decoder.md R122). -/
theorem step_fall {s : State} (hstate : s.state = .bitLow) (hedge : edge false s.sample) :
    step s = .next s.takeBit.advance := by
  obtain ⟨hrst, hlevel⟩ := hedge
  have hfall : s.bitLowStep = s.takeBit := State.waitLevel_of_level _ _ _ hlevel
  rw [step_of_busy hrst (by simp [hstate]), hstate, instrOfState, effect, hfall]

theorem step_validate {s : State} (hstate : s.state = .validate) (hrst : s.sample.rst = false) :
    step s = .next s.validateStep.advance := by
  rw [step_of_busy hrst (by simp [hstate]), hstate]
  rfl

/-! Samples passing by -/

/-- The state when n more samples have gone by and no register has changed. -/
def State.skip (n : Nat) (s : State) : State := { s with samples := s.samples.drop n, tick := s.tick + n }

@[simp] theorem State.skip_zero (s : State) : s.skip 0 = s := rfl
@[simp] theorem State.skip_samples (n : Nat) (s : State) : (s.skip n).samples = s.samples.drop n := rfl

@[simp] theorem State.skip_skip (m n : Nat) (s : State) : (s.skip m).skip n = s.skip (m + n) := by
  simp [State.skip, Nat.add_assoc]

theorem State.advance_eq_skip (s : State) : s.advance = s.skip 1 := by
  simp [State.skip, State.advance]

/-- Polls in time only pass by; the step after them clears DONE whether or not they did (40_busy_wait.md R103). -/
theorem run_polls {s : State} {l : Bool} {o : OutcomeCode} {xs rest : List Sample} (n : Nat)
    (hwait : awaited s.state = some (l, o)) (hpolls : polls (!l) s.t0 100 xs) (hs : s.samples = xs ++ rest) :
    run (xs.length + (n + 1)) s = run (n + 1) (s.skip xs.length) := by
  induction xs generalizing s with
  | nil => simp
  | cons x xs ih =>
    obtain ⟨⟨hrst, hlevel, htime⟩, hpolls⟩ := List.forall_mem_cons.mp hpolls
    have hx : s.sample = x := State.sample_of_cons hs
    have hpoll : step s = .next s.clearDone.advance := by
      apply step_poll hwait
      · rw [hx, hrst]
      · rw [State.level, hx, hlevel]
      · rw [State.elapsedUs, State.now, hx]
        exact htime
    have hskip : s.clearDone.advance.skip xs.length = (s.skip (xs.length + 1)).clearDone := by
      rw [State.advance_eq_skip, State.skip_skip, Nat.add_comm 1]
      rfl
    calc run ((x :: xs).length + (n + 1)) s
        = run (xs.length + (n + 1) + 1) s := by rw [List.length_cons, Nat.add_right_comm]
      _ = run (xs.length + (n + 1)) s.clearDone.advance := run_succ _ hpoll
      _ = run (n + 1) (s.skip (xs.length + 1)).clearDone := by
        rw [ih (s := s.clearDone.advance) hwait hpolls (by simp [hs]), hskip]
      _ = run (n + 1) (s.skip (xs.length + 1)) := run_clearDone _ _

/-! The frame while bits arrive -/

/-- FRAME when the bits `bs` have arrived: first bit at the top, the unread bits 0 (41_bit_decoder.md R124). -/
def framePrefix (bs : List Bool) : Frame := frameOfBits bs <<< (40 - bs.length)

theorem framePrefix_of_length {bs : List Bool} (h : bs.length = 40) : framePrefix bs = frameOfBits bs := by
  simp [framePrefix, h]

/-- The next bit is placed at position 39 - i, i bits having arrived (41_bit_decoder.md R122). -/
theorem framePrefix_append {bs : List Bool} (h : bs.length < 40) (b : Bool) :
    framePrefix (bs ++ [b]) = placeBit (BitVec.ofNat 6 bs.length) (framePrefix bs) b := by
  have hi : (BitVec.ofNat 6 bs.length).toNat = bs.length := by
    rw [BitVec.toNat_ofNat]
    omega
  apply BitVec.eq_of_getLsbD_eq
  intro k hk
  rw [placeBit_getLsbD _ _ _ (by omega), hi]
  simp only [framePrefix, frameOfBits, List.foldl_append, List.foldl_cons, List.foldl_nil, List.length_append,
    List.length_singleton, BitVec.getLsbD_shiftLeft, BitVec.getLsbD_ofNat]
  generalize bs.foldl (fun n b => 2 * n + b.toNat) 0 = n
  obtain ⟨m, hm⟩ : ∃ m, bs.length + m = 39 := ⟨39 - bs.length, by omega⟩
  rw [← Nat.bit_val, show 40 - (bs.length + 1) = m by omega, show 40 - bs.length = m + 1 by omega,
    show 39 - bs.length = m by omega]
  obtain hlt | rfl | hgt := lt_trichotomy k m
  · simp [hlt, hlt.ne, hlt.trans m.lt_succ_self]
  · simp [hk]
  · obtain ⟨j, rfl⟩ : ∃ j, k = m + 1 + j := ⟨k - (m + 1), by omega⟩
    have hshift : m + 1 + j - m = j + 1 := by omega
    have hj : j + 1 < 40 := by omega
    simp [hshift, hj, hgt, hgt.ne', hgt.not_gt, hk, Nat.lt_of_succ_lt hj, Nat.testBit_bit_succ]

/-- The block when the bits `bs` have been read and the last fall was at `t` (42_frame_reader.md R149). -/
def State.withBits (bs : List Bool) (t : Time) (s : State) : State :=
  { s with
    state    := if bs.length = 40 then .validate else .bitHigh
    frame    := framePrefix bs
    bitcount := BitVec.ofNat 6 bs.length
    t0       := t
    done     := false }

/-- Nothing read yet (41_bit_decoder.md R120). -/
theorem State.withBits_nil {s : State} (hstate : s.state = .bitHigh) (hcount : s.bitcount = 0) (hframe : s.frame = 0) :
    s.withBits [] s.t0 = s.clearDone := by
  simp [State.withBits, State.clearDone, framePrefix, frameOfBits, hstate, hcount, hframe]

/-- The fall of a pulse reads the next bit. -/
theorem State.takeBit_eq_withBits {s : State} {bs : List Bool} (h : bs.length < 40) (hframe : s.frame = framePrefix bs)
    (hcount : s.bitcount = BitVec.ofNat 6 bs.length) :
    s.takeBit = s.withBits (bs ++ [classifyBit s.elapsedUs]) s.now := by
  have hmod : bs.length % 64 = bs.length := by omega
  simp [State.takeBit, State.withBits, framePrefix_append h, hframe, hcount, hmod, State.enter, Config.N_BITS,
    BitVec.ofNat_add]

/-- The block in BIT_LOW, the rise seen at `t` (41_bit_decoder.md R121). -/
def State.risenAt (t : Time) (s : State) : State := { s with state := .bitLow, t0 := t, done := false }

/-- The rise of a pulse, after its low polls. -/
theorem run_rise {s : State} {x : Sample} {xs rest : List Sample} (hstate : s.state = .bitHigh)
    (hpolls : polls false s.t0 100 xs) (hedge : edge true x) (hs : s.samples = xs ++ x :: rest) :
    run (xs.length + 1) s = .next ((s.skip (xs.length + 1)).risenAt x.usNow) := by
  have hx : (s.skip xs.length).sample = x := State.sample_of_cons (xs := rest) (by simp [hs])
  have hrise : ((s.skip xs.length).enter .bitLow).advance = (s.skip (xs.length + 1)).risenAt x.usNow := by
    rw [← State.skip_skip, ← State.advance_eq_skip, ← hx]
    rfl
  rw [run_polls 0 (congrArg awaited hstate) hpolls hs, ← hrise]
  exact run_succ 0 (step_rise hstate (by rwa [hx]))

/-- The fall of a pulse, after its high polls: one more bit. -/
theorem run_fall {s : State} {x : Sample} {xs rest : List Sample} {bs : List Bool} (hstate : s.state = .bitLow)
    (h : bs.length < 40) (hframe : s.frame = framePrefix bs) (hcount : s.bitcount = BitVec.ofNat 6 bs.length)
    (hpolls : polls true s.t0 100 xs) (hedge : edge false x) (hs : s.samples = xs ++ x :: rest) :
    run (xs.length + 1) s =
      .next ((s.skip (xs.length + 1)).withBits (bs ++ [classifyBit (x.usNow - s.t0).toNat]) x.usNow) := by
  have hx : (s.skip xs.length).sample = x := State.sample_of_cons (xs := rest) (by simp [hs])
  have hfall : (s.skip xs.length).takeBit.advance =
      (s.skip (xs.length + 1)).withBits (bs ++ [classifyBit (x.usNow - s.t0).toNat]) x.usNow := by
    rw [State.takeBit_eq_withBits (s := s.skip xs.length) h hframe hcount, ← State.skip_skip,
      ← State.advance_eq_skip, ← hx]
    rfl
  rw [run_polls 0 (congrArg awaited hstate) hpolls hs, ← hfall]
  exact run_succ 0 (step_fall hstate (by rwa [hx]))

/-- One pulse in time is one bit (41_bit_decoder.md R121 to R123). -/
theorem run_pulse {s : State} {p : Pulse} {bs : List Bool} {t : Time} {rest : List Sample} (h : bs.length < 40)
    (htime : p.inTime t) (hs : s.samples = p.samples ++ rest) :
    run p.samples.length (s.withBits bs t) =
      .next ((s.skip p.samples.length).withBits (bs ++ [p.bit]) p.fall.usNow) := by
  obtain ⟨hlows, hrise, hhighs, hfall⟩ := htime
  have hs : s.samples = p.lows ++ p.rise :: (p.highs ++ p.fall :: rest) := by simp [hs, Pulse.samples]
  have hlength : p.samples.length = (p.lows.length + 1) + (p.highs.length + 1) := by
    simp [Pulse.samples, add_assoc, add_comm]
  let u := ((s.withBits bs t).skip (p.lows.length + 1)).risenAt p.rise.usNow
  have husamples : u.samples = p.highs ++ p.fall :: rest := by simp [u, State.risenAt, State.withBits, hs]
  have hrun : run (p.lows.length + 1) (s.withBits bs t) = .next u := run_rise (if_neg h.ne) hlows hrise hs
  rw [hlength, run_add _ _ hrun, run_fall (s := u) rfl h rfl rfl hhighs hfall husamples,
    ← State.skip_skip (p.lows.length + 1) (p.highs.length + 1)]
  rfl

/-- Pulses in time are their bits, in order (42_frame_reader.md R149). -/
theorem run_pulses {s : State} {ps : List Pulse} {bs : List Bool} {t : Time} {rest : List Sample}
    (h : bs.length + ps.length ≤ 40) (htime : pulsesInTime t ps) (hs : s.samples = ps.flatMap Pulse.samples ++ rest) :
    run (ps.flatMap Pulse.samples).length (s.withBits bs t) =
      .next ((s.skip (ps.flatMap Pulse.samples).length).withBits (bs ++ ps.map Pulse.bit) (lastFall t ps)) := by
  induction ps generalizing s bs t with
  | nil => simp [lastFall]
  | cons p ps ih =>
    obtain ⟨hp, hps⟩ := htime
    simp only [List.flatMap_cons, List.append_assoc] at hs
    simp only [List.length_cons] at h
    have hpulse := run_pulse (bs := bs) (by omega) hp hs
    have hlength : (bs ++ [p.bit]).length + ps.length ≤ 40 := by
      rw [List.length_append, List.length_singleton]
      omega
    have hrest := ih (s := s.skip p.samples.length) hlength hps (by simp [hs])
    simp only [List.flatMap_cons, List.length_append, run_add _ _ hpulse, hrest, List.append_assoc,
      List.singleton_append, State.skip_skip, List.map_cons, lastFall]

/-- With forty bits read, VALIDATE publishes the frame's words or finishes with a mismatch (42_frame_reader.md R150). -/
theorem State.validateStep_withBits {bs : List Bool} (h : bs.length = 40) (t : Time) (s : State) :
    (s.withBits bs t).validateStep =
      if checksumOk (frameOfBits bs) then
        { s with
          state := .idle, frame := frameOfBits bs, bitcount := 40, t0 := t, outcome := .success, valid := true,
          done := true, humR := humidityWord (frameOfBits bs), tempR := temperatureWord (frameOfBits bs),
          tempX10R := tempX10 (temperatureWord (frameOfBits bs)) }
      else
        { s with
          state := .idle, frame := frameOfBits bs, bitcount := 40, t0 := t, outcome := .checksumMismatch,
          done := true } := by
  simp only [State.validateStep, State.withBits, framePrefix_of_length h, h]
  rfl

/-! The statements -/

/-- Settles O23: the line level selects no operation, and outside the wait states no wait is selected. -/
theorem lineIgnoredOutsideWaits : Obligations.LineIgnoredOutsideWaits := by
  intro s x xs l hreads _
  have hnowait : ∀ q, (s.placing (x :: xs)).currentInstr = instrOfState q → readsLine q = false := by
    intro q hq
    obtain rfl : s.state = q := State.state_of_currentInstr (s := s.placing (x :: xs)) hq
    exact hreads
  rw [step_eq_effect, step_eq_effect]
  exact congrArg Host.Outcome.next (effect_advance_lineIn hnowait s x xs l).symm

/-- Settles O42: the pulses leave the block in VALIDATE with the frame, and the step there is the verdict. -/
theorem fortyPulsesAreTheFrame : Obligations.FortyPulsesAreTheFrame := by
  intro s ps v rest hstate hcount hframe hlen htime hv hs _ n f
  have hbits : (ps.map Pulse.bit).length = 40 := by rw [List.length_map, hlen]
  let m := (ps.flatMap Pulse.samples).length
  let u := (s.skip m).withBits (ps.map Pulse.bit) (lastFall s.t0 ps)
  have hpulses : run m (s.withBits [] s.t0) = .next u := run_pulses (by simp [hlen]) htime hs
  have husamples : s.samples.drop m = v :: rest := by rw [hs, List.drop_left]
  have husample : u.sample = v := State.sample_of_cons husamples
  calc run n s
      = run n (s.withBits [] s.t0) := by rw [State.withBits_nil hstate hcount hframe, run_clearDone]
    _ = run 1 u := run_add m 1 hpulses
    _ = .next u.validateStep.advance := run_succ 0 (step_validate (if_pos hbits) (by rwa [husample]))
    _ = _ := by
      rw [State.validateStep_withBits hbits, apply_ite State.advance]
      simp only [State.advance, State.skip_samples, husamples]
      rfl

end Sys2Proof.Machine

/-! Encodings and the choice of a step's operation (30_encoding.md): the decoder and the encoder, the IDLE row, and the
codes that the status word shows. -/

namespace Sys2Proof.Machine

/-! The decoder and the encoder (30_encoding.md R81, R85, R91) -/

/-- The encoder writes the table's words. -/
theorem decode_encode (i : Instr) : decode (encode i) = .ok i := by
  cases i <;> rfl

theorem encode_decodeCmd (c : BitVec 2) : encode (decodeCmd c) = ⟨.cmd, c.toNat⟩ := by
  revert c
  decide

theorem encode_instrOfState_stateOfCode (c : BitVec 3) : encode (instrOfState (stateOfCode c)) = ⟨.state, c.toNat⟩ := by
  revert c
  decide

/-- The CMD and STATE formats use all their codes; of the RST format's two words, `rst = 0` is no instruction's. -/
theorem exists_encode_of_fits {w : TableWord} (hfits : w.bits < 2 ^ w.format.width) :
    w = ⟨.rst, 0⟩ ∨ ∃ i, encode i = w := by
  obtain ⟨format, bits⟩ := w
  cases format with
  | rst =>
    obtain rfl | rfl := Nat.le_one_iff_eq_zero_or_eq_one.mp (Nat.le_of_lt_succ hfits)
    · exact .inl rfl
    · exact .inr ⟨.rst, rfl⟩
  | cmd =>
    have hbits : (BitVec.ofNat 2 bits).toNat = bits := Nat.mod_eq_of_lt hfits
    exact .inr ⟨decodeCmd (BitVec.ofNat 2 bits), by rw [encode_decodeCmd, hbits]⟩
  | state =>
    have hbits : (BitVec.ofNat 3 bits).toNat = bits := Nat.mod_eq_of_lt hfits
    exact .inr ⟨instrOfState (stateOfCode (BitVec.ofNat 3 bits)), by rw [encode_instrOfState_stateOfCode, hbits]⟩

theorem decode_of_tooWide {w : TableWord} (hwide : 2 ^ w.format.width ≤ w.bits) :
    decode w = .error .wordTooWide := by
  simp [decode, TableWord.wellFormed, hwide]

theorem decode_rst_zero : decode ⟨.rst, 0⟩ = .error .resetNotAsserted := rfl

/-- Every word is refused for one of the two reasons, or is an instruction's word. -/
theorem tableWord_cases (w : TableWord) :
    2 ^ w.format.width ≤ w.bits ∨ w = ⟨.rst, 0⟩ ∨ ∃ i, encode i = w :=
  (le_or_gt _ _).imp_right exists_encode_of_fits

theorem encode_of_decode {w : TableWord} {i : Instr} (h : decode w = .ok i) : encode i = w := by
  obtain hwide | rfl | ⟨j, rfl⟩ := tableWord_cases w
  · simp [decode_of_tooWide hwide] at h
  · simp [decode_rst_zero] at h
  · rw [decode_encode, Except.ok.injEq] at h
    rw [h]

theorem exists_decode_eq_error_iff (w : TableWord) :
    (∃ e, decode w = .error e) ↔ 2 ^ w.format.width ≤ w.bits ∨ w = ⟨.rst, 0⟩ := by
  constructor
  · rintro ⟨e, h⟩
    obtain hwide | hzero | ⟨i, rfl⟩ := tableWord_cases w
    · exact .inl hwide
    · exact .inr hzero
    · simp [decode_encode] at h
  · rintro (hwide | rfl)
    · exact ⟨_, decode_of_tooWide hwide⟩
    · exact ⟨_, decode_rst_zero⟩

/-! The choice of a step's operation (30_encoding.md R89) -/

theorem decodeStep_of_busy {q : FsmState} (hbusy : q ≠ .idle) (c : BitVec 2) :
    decodeStep false q c = instrOfState q := by
  cases q with
  | idle => exact absurd rfl hbusy
  | _ => rfl

/-! The statements -/

/-- Settles O16: a word that fits its format is an instruction's word or `rst = 0`, and instructions' words decode
back. -/
theorem decodeAndEncodeAreInverse : Obligations.DecodeAndEncodeAreInverse :=
  ⟨decode_encode, fun _ _ => encode_of_decode, exists_decode_eq_error_iff⟩

/-- Settles O5: the IDLE row's effect is that of ACQUIRE or of no request, by the command. -/
theorem idleActsOnCommand : Obligations.IdleActsOnCommand := by
  intro s
  rw [exec_eq_effect, effect]
  constructor
  · intro hacquire
    rw [if_pos hacquire]
    rfl
  · intro hother
    rw [if_neg hother]
    rfl

/-- Settles O14: `decodeStep` is the choice by priority, and a step runs its choice. -/
theorem stepRunsSelectedOperation : Obligations.StepRunsSelectedOperation := by
  refine ⟨fun _ _ => rfl, fun _ => rfl, fun _ c hbusy => decodeStep_of_busy hbusy c, ?_⟩
  intro s t _ hexec
  have hselected : exec s.currentInstr s = .next t := hexec
  rw [step, hselected]
  rfl

/-- Settles O15: the table's words are those that the encoder writes. -/
theorem tableWordsDecode : Obligations.TableWordsDecode :=
  ⟨decode_encode .rst, decode_encode .nop, decode_encode .acquire, decode_encode .reservedCmd2,
    decode_encode .reservedCmd3, decode_encode .idle, decode_encode .startLow, decode_encode .startHigh,
    decode_encode .hsLow, decode_encode .hsHigh, decode_encode .bitHigh, decode_encode .bitLow,
    decode_encode .validate⟩

/-- Settles O50: the status word's fields are the codes of STATE and OUTCOME, and these are the table's. -/
theorem statusShowsTableCodes : Obligations.StatusShowsTableCodes := by
  intro s
  obtain ⟨-, -, -, houtcome, hstate, -⟩ := statusAndPortsCopyRegisters s
  rw [houtcome, hstate]
  constructor
  · cases s.state <;> rfl
  · cases s.outcome <;> rfl

end Sys2Proof.Machine

/-! The busy-waits (40_busy_wait.md): elapsed time, the rows of the hold and wait states as one shape each, what a step
into, within or out of such a state does, and runs that end at the first due or late sample. -/

namespace Sys2Proof.Machine

/-! The rows of the hold and wait states -/

/-- A hold state's duration and the state after it, as `awaited` is for the wait states (40_busy_wait.md R102;
42_frame_reader.md R144, R145). -/
def holding : FsmState → Option (Nat × FsmState)
  | .startLow  => some (20000, .startHigh)
  | .startHigh => some (30, .hsLow)
  | .idle | .hsLow | .hsHigh | .bitHigh | .bitLow | .validate => none

theorem timed_iff {q : FsmState} :
    timed q = true ↔ (∃ d r, holding q = some (d, r)) ∨ ∃ l o, awaited q = some (l, o) := by
  cases q <;> simp [timed, holding, awaited]

theorem timed_of_holding {q r : FsmState} {d : Nat} (h : holding q = some (d, r)) : timed q = true :=
  timed_iff.mpr (.inl ⟨d, r, h⟩)

theorem timed_of_awaited {q : FsmState} {l : Bool} {o : OutcomeCode} (h : awaited q = some (l, o)) : timed q = true :=
  timed_iff.mpr (.inr ⟨l, o, h⟩)

/-- The row of a hold state is a hold, and its completion enters the next state (40_busy_wait.md R102, R105). -/
theorem effect_of_holding {q r : FsmState} {d : Nat} (h : holding q = some (d, r)) :
    r ≠ q ∧ ∃ complete, ∀ s, effect (instrOfState q) s = s.hold d complete ∧
      (complete s).state = r ∧ (complete s).t0 = s.now := by
  cases q <;> simp only [holding, Option.some.injEq, Prod.mk.injEq, reduceCtorEq] at h
  all_goals
    obtain ⟨rfl, rfl⟩ := h
    exact ⟨by decide, _, fun _ => ⟨rfl, rfl, rfl⟩⟩

/-- The fall goes on to the next bit or to VALIDATE (41_bit_decoder.md R122). -/
theorem State.takeBit_state_ne (s : State) : s.takeBit.state ≠ .bitLow ∧ s.takeBit.state ≠ .idle := by
  obtain ⟨h, -⟩ | ⟨h, -⟩ := s.takeBit_state <;> simp [h]

/-- The row of a wait state is a level wait of 100 us, and its success goes on to another state of the acquisition with
no outcome recorded (40_busy_wait.md R103, R104). -/
theorem effect_of_awaited_success {q : FsmState} {l : Bool} {o : OutcomeCode} (h : awaited q = some (l, o)) :
    ∃ success, ∀ s, effect (instrOfState q) s = s.waitLevel l 100 o success ∧ (success s).state ≠ q ∧
      (success s).state ≠ .idle ∧ (success s).done = false ∧ (success s).outcome = s.outcome := by
  cases q <;> simp only [awaited, Option.some.injEq, Prod.mk.injEq, reduceCtorEq] at h
  case hsLow | hsHigh | bitHigh =>
    obtain ⟨rfl, rfl⟩ := h
    exact ⟨_, fun _ => ⟨rfl, by simp, by simp, rfl, rfl⟩⟩
  case bitLow =>
    obtain ⟨rfl, rfl⟩ := h
    exact ⟨_, fun s => ⟨rfl, s.takeBit_state_ne.1, s.takeBit_state_ne.2, rfl, rfl⟩⟩

/-! One step -/

/-- An operation that leaves a hold or wait state as the new STATE has written T0 (40_busy_wait.md R105). -/
theorem State.Leaves.t0_of_entered {s t : State} {i : Instr} (hl : s.Leaves i t) (hmoved : t.state ≠ s.state)
    (htimed : timed t.state = true) : t.t0 = s.now := by
  cases hl with
  | reset => exact absurd htimed Bool.false_ne_true
  | accept => rfl
  | stay => exact absurd rfl hmoved
  | endLowHold => rfl
  | endHighHold => rfl
  | proceed => rfl
  | takeBit => rfl
  | timeout => exact absurd htimed Bool.false_ne_true
  | publish => exact absurd htimed Bool.false_ne_true
  | mismatch => exact absurd htimed Bool.false_ne_true

/-- A hold or wait state performs its row in every step without reset (40_busy_wait.md R106). -/
theorem step_of_timed {s : State} (hrst : s.sample.rst = false) (htimed : timed s.state = true) :
    step s = .next (effect (instrOfState s.state) s).advance := by
  refine step_of_busy hrst fun hidle => ?_
  simp [hidle, timed] at htimed

/-- The row of a hold or wait state clears DONE only, or moves to another state (40_busy_wait.md R102, R103). -/
theorem effect_of_timed {q : FsmState} (htimed : timed q = true) (s : State) :
    effect (instrOfState q) s = s.clearDone ∨ (effect (instrOfState q) s).state ≠ q := by
  obtain ⟨d, r, hq⟩ | ⟨l, o, hq⟩ := timed_iff.mp htimed
  · obtain ⟨hr, complete, hrow⟩ := effect_of_holding hq
    obtain ⟨heffect, hstate, -⟩ := hrow s
    rw [heffect]
    obtain ⟨-, h⟩ | ⟨-, h⟩ := s.hold_cases d complete
    · exact .inr (by rwa [h, hstate])
    · exact .inl h
  · obtain ⟨success, hrow⟩ := effect_of_awaited_success hq
    obtain ⟨heffect, hmoves, -⟩ := hrow s
    rw [heffect]
    obtain ⟨-, h⟩ | ⟨-, -, h⟩ | ⟨-, -, h⟩ := s.waitLevel_cases l 100 o success
    · exact .inr (by rwa [h])
    · refine .inr ?_
      rw [h, State.finish_state]
      rintro rfl
      exact absurd htimed (by decide)
    · exact .inl h

/-- A hold before its time stays (40_busy_wait.md R102). -/
theorem step_hold_of_lt {s : State} {d : Nat} {r : FsmState} (hq : holding s.state = some (d, r))
    (hrst : s.sample.rst = false) (htime : s.elapsedUs < d) : step s = .next s.clearDone.advance := by
  obtain ⟨-, complete, hrow⟩ := effect_of_holding hq
  rw [step_of_timed hrst (timed_of_holding hq), (hrow s).1, State.hold_of_lt complete htime]

/-- A hold at its time or past it completes (40_busy_wait.md R102, R105). -/
theorem step_hold_of_le {s : State} {d : Nat} {r : FsmState} (hq : holding s.state = some (d, r))
    (hrst : s.sample.rst = false) (htime : d ≤ s.elapsedUs) :
    ∃ t, step s = .next t ∧ t.state = r ∧ t.t0 = s.now := by
  obtain ⟨-, complete, hrow⟩ := effect_of_holding hq
  obtain ⟨heffect, hstate, ht0⟩ := hrow s
  have hends : s.hold d complete = complete s := if_pos htime
  refine ⟨(complete s).advance, ?_, hstate, ht0⟩
  rw [step_of_timed hrst (timed_of_holding hq), heffect, hends]

/-- A poll at the other level, past the timeout, finishes with the state's outcome (40_busy_wait.md R103). -/
theorem step_timeout {s : State} {l : Bool} {o : OutcomeCode} (hwait : awaited s.state = some (l, o))
    (hrst : s.sample.rst = false) (hlevel : s.level = !l) (htime : 100 < s.elapsedUs) :
    step s = .next (s.finish o).advance := by
  obtain ⟨success, hrow⟩ := effect_of_awaited hwait
  rw [step_of_timed hrst (timed_of_awaited hwait), hrow]
  obtain ⟨h, -⟩ | ⟨-, -, h⟩ | ⟨-, h, -⟩ := s.waitLevel_cases l 100 o success
  · simp [hlevel] at h
  · rw [h]
  · omega

/-! Runs within one hold or wait -/

/-- Past the samples `xs` the next one is read. -/
theorem State.sample_skip_length {s : State} {xs rest : List Sample} {x : Sample} (hs : s.samples = xs ++ x :: rest)
    (b : Bool) : State.sample { s.skip xs.length with done := b } = x :=
  State.sample_of_cons (xs := rest) (by simp [hs])

/-- While every sample leaves the operation in progress, samples pass by and only DONE changes (40_busy_wait.md
R108). -/
theorem run_stays {s : State} {xs rest : List Sample} (hs : s.samples = xs ++ rest)
    (hstays : ∀ u : State, u.state = s.state → u.t0 = s.t0 → u.sample ∈ xs → step u = .next u.clearDone.advance)
    {k : Nat} (hk : k ≤ xs.length) : ∃ b, run k s = .next { s.skip k with done := b } := by
  induction k with
  | zero => exact ⟨s.done, rfl⟩
  | succ k ih =>
    obtain ⟨b, hrun⟩ := ih (by omega)
    let u : State := { s.skip k with done := b }
    have husamples : u.samples = xs[k] :: (xs.drop (k + 1) ++ rest) := by
      change s.samples.drop k = _
      rw [hs, List.drop_append_of_le_length (by omega), List.drop_eq_getElem_cons hk, List.cons_append]
    have hstep : step u = .next u.clearDone.advance := by
      refine hstays u rfl rfl ?_
      rw [State.sample_of_cons husamples]
      exact List.getElem_mem hk
    have hnext : u.clearDone.advance = { s.skip (k + 1) with done := false } := by
      rw [← State.skip_skip, ← State.advance_eq_skip]
      rfl
    exact ⟨false, hnext ▸ (run_add k 1 hrun).trans (run_succ 0 hstep)⟩

/-- The samples of a hold before its time leave it in progress (40_busy_wait.md R102). -/
theorem run_hold_stays {s : State} {d : Nat} {r : FsmState} {xs rest : List Sample}
    (hq : holding s.state = some (d, r)) (hxs : holds s.t0 d xs) (hs : s.samples = xs ++ rest) {k : Nat}
    (hk : k ≤ xs.length) : ∃ b, run k s = .next { s.skip k with done := b } := by
  refine run_stays hs (fun u hstate ht0 hu => ?_) hk
  obtain ⟨hrst, htime⟩ := hxs _ hu
  exact step_hold_of_lt (hstate ▸ hq) hrst (by rwa [State.elapsedUs, State.now, ht0])

/-- The polls of a wait at the other level, in time, leave it in progress (40_busy_wait.md R103). -/
theorem run_wait_stays {s : State} {l : Bool} {o : OutcomeCode} {xs rest : List Sample}
    (hwait : awaited s.state = some (l, o)) (hxs : polls (!l) s.t0 100 xs) (hs : s.samples = xs ++ rest) {k : Nat}
    (hk : k ≤ xs.length) : ∃ b, run k s = .next { s.skip k with done := b } := by
  refine run_stays hs (fun u hstate ht0 hu => ?_) hk
  obtain ⟨hrst, hlevel, htime⟩ := hxs _ hu
  exact step_poll (hstate ▸ hwait) hrst hlevel (by rwa [State.elapsedUs, State.now, ht0])

/-! The statements -/

/-- Settles O20: of the states an operation can leave, those entered anew that hold or wait have T0 = t. -/
theorem enteringTimedStateLatchesTime : Obligations.EnteringTimedStateLatchesTime := by
  intro s t _ hstep hmoved htimed
  rw [step_next_iff] at hstep
  subst hstep
  exact (effect_leaves s.currentInstr s).t0_of_entered hmoved htimed

/-- Settles O21: every completion, success and timeout moves STATE, so a step that does not is a stay. -/
theorem stayingInTimedStateChangesNothing : Obligations.StayingInTimedStateChangesNothing := by
  intro s t _ hstep hrst htimed hsame
  rw [step_of_timed hrst htimed] at hstep
  cases hstep
  obtain h | h := effect_of_timed htimed s
  · rw [h]
    rfl
  · exact absurd hsame h

/-- Settles O22: the level test comes first, and no success action ends the acquisition. -/
theorem targetLevelSucceedsHoweverLate : Obligations.TargetLevelSucceedsHoweverLate := by
  intro s l o _ hwait hrst hlevel
  obtain ⟨success, hrow⟩ := effect_of_awaited_success hwait
  obtain ⟨heffect, hsuccess⟩ := hrow s
  refine ⟨(success s).advance, ?_, hsuccess⟩
  rw [step_of_timed hrst (timed_of_awaited hwait), heffect, State.waitLevel_of_level _ _ _ hlevel]

/-- Settles O34: the samples before the due one leave the hold in progress, and the due one ends it. -/
theorem holdEndsAtFirstDueSample : Obligations.HoldEndsAtFirstDueSample := by
  intro s xs x rest d hhold hs hxs hrst htime _
  have hq : holding s.state = some (d, if s.state = .startLow then .startHigh else .hsLow) := by
    obtain ⟨hstate, rfl⟩ | ⟨hstate, rfl⟩ := hhold <;> simp [hstate, holding]
  constructor
  · intro k hk
    obtain ⟨b, hrun⟩ := run_hold_stays hq hxs hs hk
    exact ⟨_, hrun, rfl, rfl⟩
  · obtain ⟨b, hrun⟩ := run_hold_stays hq hxs hs le_rfl
    have hx := State.sample_skip_length hs b
    obtain ⟨t, hstep, hstate, ht0⟩ := step_hold_of_le (s := { s.skip xs.length with done := b }) hq (by rwa [hx])
      (by rwa [State.elapsedUs, State.now, hx])
    have hend : run (xs.length + 1) s = .next t := (run_add _ 1 hrun).trans (run_succ 0 hstep)
    refine ⟨t, hend, ?_, ?_, hstate⟩
    · rw [ht0, State.now, hx]
    · simp [run_samples _ hend, hs]

/-- Settles O35: the polls in time leave the wait in progress, and the late one finishes with the state's outcome. -/
theorem waitTimesOutAtFirstLateSample : Obligations.WaitTimesOutAtFirstLateSample := by
  intro s l o xs x rest hwait hs hxs hedge htime _
  obtain ⟨hrst, hlevel⟩ := hedge
  constructor
  · intro k hk
    obtain ⟨b, hrun⟩ := run_wait_stays hwait hxs hs hk
    exact ⟨_, hrun, rfl⟩
  · obtain ⟨b, hrun⟩ := run_wait_stays hwait hxs hs le_rfl
    have hx := State.sample_skip_length hs b
    have hstep := step_timeout (s := { s.skip xs.length with done := b }) hwait (by rwa [hx])
      (by rwa [State.level, hx]) (by rwa [State.elapsedUs, State.now, hx])
    rw [run_add _ 1 hrun, run_succ 0 hstep]
    simp [State.finish, State.advance, State.skip, hs, Nat.add_assoc]

/-- Settles O33: 32-bit subtraction is subtraction modulo 2^32, and the true difference is below 2^32. -/
theorem elapsedIsTrueTime : Obligations.ElapsedIsTrueTime := by
  intro τj τk hle hlt
  rw [elapsed, BitVec.toNat_sub, BitVec.toNat_ofNat, BitVec.toNat_ofNat]
  omega

end Sys2Proof.Machine

/-! The bit decoder (41_bit_decoder.md): the rows BIT_HIGH and BIT_LOW as equations of the whole state, the place of
each bit in the frame, and the first bit's pulse, which begins inside the handshake high. -/

namespace Sys2Proof.Machine

/-! The rows of BIT_HIGH and BIT_LOW -/

/-- A level wait of 100 us, in the rules' words: the level, then the timeout, else DONE <- 0 only (40_busy_wait.md
R103). -/
theorem State.waitLevel_eq (l : Bool) (o : OutcomeCode) (success : State → State) (s : State) :
    s.waitLevel l 100 o success =
      if s.sample.lineIn = l then success s
      else if 100 < (s.sample.usNow - s.t0).toNat then { s with outcome := o, state := .idle, done := true }
      else { s with done := false } := rfl

theorem exec_bitHigh_eq_waitLevel (s : State) :
    exec .bitHigh s = .next (s.waitLevel true 100 .timeoutBit (·.enter .bitLow)) := rfl

theorem exec_bitLow_eq_waitLevel (s : State) :
    exec .bitLow s = .next (s.waitLevel false 100 .timeoutBit State.takeBit) := rfl

@[simp] theorem State.takeBit_frame (s : State) :
    s.takeBit.frame = placeBit s.bitcount s.frame (classifyBit s.elapsedUs) := rfl

/-- BIT_LOW on a low line takes the bit (41_bit_decoder.md R122). -/
theorem exec_bitLow_of_fall {s : State} (hfall : s.sample.lineIn = false) : exec .bitLow s = .next s.takeBit := by
  rw [exec_bitLow_eq_waitLevel, State.waitLevel_of_level _ _ _ hfall]

/-- A fall with a bit of FRAME left to read (41_bit_decoder.md R122, R123). -/
theorem State.takeBit_of_le {s : State} (h : s.bitcount.toNat ≤ 39) :
    s.takeBit =
      { s with
        frame := s.frame |||
          (if 45 < (s.sample.usNow - s.t0).toNat then BitVec.twoPow 40 (39 - s.bitcount.toNat) else 0)
        bitcount := s.bitcount + 1
        t0 := s.sample.usNow
        state := if s.bitcount.toNat = 39 then .validate else .bitHigh
        done := false } := by
  have hlast : s.bitcount.toNat + 1 = Config.N_BITS ↔ s.bitcount.toNat = 39 := Nat.succ_inj
  simp only [State.takeBit, placeBit_of_lt (Nat.lt_succ_of_le h), classifyBit_eq, decide_eq_true_eq, hlast]
  rfl

/-- A fall with every bit of FRAME read (log entry 5). -/
theorem State.takeBit_of_ge {s : State} (h : 40 ≤ s.bitcount.toNat) :
    s.takeBit =
      { s with
        frame := Config.freeFrame s.bitcount s.frame (decide (45 < (s.sample.usNow - s.t0).toNat))
        bitcount := s.bitcount + 1
        t0 := s.sample.usNow
        state := .bitHigh
        done := false } := by
  have hnobit : ¬ s.bitcount.toNat < Config.N_BITS := Nat.not_lt.mpr h
  have hnotlast : s.bitcount.toNat + 1 ≠ Config.N_BITS := by simp only [Config.N_BITS]; omega
  rw [State.takeBit, placeBit, if_neg hnobit, if_neg hnotlast]
  rfl

/-! The place of a bit -/

/-- Stream position j is bit 7 - j mod 8 of byte j div 8 (41_bit_decoder.md R124, 10_state.md R27). -/
theorem frameByte_getLsbD (f : Frame) {j : Nat} (hj : j ≤ 39) :
    (frameByte f (j / 8)).getLsbD (7 - j % 8) = f.getLsbD (39 - j) := by
  have hbit : 7 - j % 8 < 8 := by omega
  have hplace : 32 - 8 * (j / 8) + (7 - j % 8) = 39 - j := by omega
  rw [frameByte, BitVec.getLsbD_extractLsb', hplace, decide_eq_true hbit, Bool.true_and]

/-- In range, the OR reaches stream position i and no other (41_bit_decoder.md R124). -/
theorem placeBit_getLsbD_stream {i : BitVec 6} (hi : i.toNat ≤ 39) (f : Frame) (b : Bool) {j : Nat} (hj : j ≤ 39) :
    (placeBit i f b).getLsbD (39 - j) = (f.getLsbD (39 - j) || (decide (j = i.toNat) && b)) := by
  have hsame : 39 - j = 39 - i.toNat ↔ j = i.toNat := by omega
  rw [placeBit_getLsbD i f b (by omega), decide_eq_decide.mpr hsame, Bool.and_comm]

/-! The first bit (41_bit_decoder.md R127) -/

/-- HS_HIGH at the rise goes to BIT_HIGH (42_frame_reader.md R148). -/
theorem step_hsRise {s : State} (hstate : s.state = .hsHigh) (hedge : edge true s.sample) :
    step s = .next (s.enter .bitHigh).advance := by
  obtain ⟨hrst, hlevel⟩ := hedge
  have hrise : s.hsHighStep = s.enter .bitHigh := State.waitLevel_of_level _ _ _ hlevel
  rw [step_of_busy hrst (by simp [hstate]), hstate, instrOfState, effect, hrise]

/-- Sample k of a line sampled every microsecond from time `r`, high in its first `H` samples (41_bit_decoder.md
R127). -/
def highSample (r : Time) (H : Nat) (c : Nat → BitVec 2) (k : Nat) : Sample :=
  ⟨false, c k, r + BitVec.ofNat 32 k, decide (k < H)⟩

/-- The pulse that bit 0 measures: the handshake high from its second sample on. -/
def tailPulse (r : Time) (H : Nat) (c : Nat → BitVec 2) : Pulse where
  lows  := []
  rise  := highSample r H c 1
  highs := (List.range' 2 (H - 2)).map (highSample r H c)
  fall  := highSample r H c H

theorem highSample_edge {r : Time} {H : Nat} {c : Nat → BitVec 2} {k : Nat} (hk : k < H) :
    edge true (highSample r H c k) := ⟨rfl, decide_eq_true hk⟩

/-- The samples of the handshake high and the fall: one for HS_HIGH, then bit 0's pulse. -/
theorem highSamples_eq_tailPulse (r : Time) {H : Nat} (hH : 2 ≤ H) (c : Nat → BitVec 2) :
    (List.range (H + 1)).map (highSample r H c) = highSample r H c 0 :: (tailPulse r H c).samples := by
  obtain ⟨h, rfl⟩ := Nat.exists_eq_add_of_le' hH
  have hrange : List.range (h + 2 + 1) = 0 :: 1 :: (List.range' 2 h ++ [h + 2]) := by
    rw [List.range_eq_range', List.range'_succ, List.range'_succ, List.range'_concat]
    simp [Nat.add_comm]
  simp [hrange, tailPulse, Pulse.samples]

/-- From the second sample to sample k there are k - 1 us, wherever the timer wraps (40_busy_wait.md R101). -/
theorem elapsed_highSample (r : Time) (H : Nat) (c : Nat → BitVec 2) {k : Nat} (hk : 1 ≤ k) (hlt : k ≤ 2 ^ 32) :
    (elapsed (highSample r H c 1).usNow (highSample r H c k).usNow).toNat = k - 1 := by
  simp only [elapsed, highSample, BitVec.toNat_sub, BitVec.toNat_add, BitVec.toNat_ofNat]
  omega

theorem tailPulse_inTime (r t0 : Time) {H : Nat} (hH : 2 ≤ H) (hmax : H ≤ 102) (c : Nat → BitVec 2) :
    (tailPulse r H c).inTime t0 := by
  refine ⟨by simp [polls, tailPulse], highSample_edge hH, ?_, rfl, decide_eq_false H.lt_irrefl⟩
  intro x hx
  obtain ⟨k, hk, rfl⟩ := List.mem_map.mp hx
  rw [List.mem_range'_1] at hk
  obtain ⟨hrst, hlevel⟩ := highSample_edge (r := r) (c := c) (show k < H by omega)
  refine ⟨hrst, hlevel, ?_⟩
  change (elapsed (highSample r H c 1).usNow _).toNat ≤ 100
  rw [elapsed_highSample r H c (by omega) (by omega)]
  omega

/-- Bit 0 is 1 exactly if the tail of the handshake high is longer than 45 us (41_bit_decoder.md R123, R127). -/
theorem tailPulse_bit (r : Time) {H : Nat} (hH : 2 ≤ H) (hmax : H ≤ 102) (c : Nat → BitVec 2) :
    (tailPulse r H c).bit = decide (45 < H - 1) := by
  rw [← elapsed_highSample r H c (show 1 ≤ H by omega) (by omega)]
  rfl

/-- The frame with one bit read is that bit at the top. -/
theorem framePrefix_singleton (b : Bool) : framePrefix [b] = if b then BitVec.twoPow 40 39 else 0 := by
  cases b <;> decide

/-! The statements -/

/-- Settles O10: BIT_HIGH's row is the level wait whose success enters BIT_LOW. -/
theorem bitHighWaitsForRise : Obligations.BitHighWaitsForRise := by
  intro s
  rw [exec_bitHigh_eq_waitLevel, State.waitLevel_eq]
  rfl

/-- Settles O11: BIT_LOW's row is the level wait whose success takes the bit. -/
theorem bitLowMeasuresAndAccumulates : Obligations.BitLowMeasuresAndAccumulates := by
  intro s hcount
  rw [exec_bitLow_eq_waitLevel, State.waitLevel_eq, State.takeBit_of_le hcount]

/-- Settles O12: the same row, with no place left for the bit. -/
theorem bitLowBeyondTheFrameLeavesFrameFree : Obligations.BitLowBeyondTheFrameLeavesFrameFree := by
  intro s hcount
  rw [exec_bitLow_eq_waitLevel, State.waitLevel_eq, State.takeBit_of_ge hcount]

/-- Settles O37: the fall ORs the bit into its stream position, and the bytes are cut from the stream at every eighth
bit. -/
theorem bitGoesToItsBytePosition : Obligations.BitGoesToItsBytePosition := by
  intro s t j hcount hfall hexec hj
  rw [exec_bitLow_of_fall hfall] at hexec
  cases hexec
  refine ⟨?_, frameByte_getLsbD _ hj⟩
  rw [State.takeBit_frame, placeBit_getLsbD_stream hcount _ _ hj, classifyBit_eq]
  rfl

/-- Settles O44: HS_HIGH takes the first high sample and leaves the others to bit 0 as its pulse. -/
theorem firstBitMeasuresHandshakeHigh : Obligations.FirstBitMeasuresHandshakeHigh := by
  intro s r H c rest hH hmax hstate hcount hframe hs _
  let p := tailPulse r H c
  let u := (s.enter .bitHigh).advance
  have hsamples : s.samples = highSample r H c 0 :: (p.samples ++ rest) :=
    hs.trans (congrArg (· ++ rest) (highSamples_eq_tailPulse r hH c))
  have hsample : s.sample = highSample r H c 0 := State.sample_of_cons hsamples
  have hrise : step s = .next u := step_hsRise hstate (hsample ▸ highSample_edge (by omega))
  have hlength : p.samples.length = H := by
    simpa using (congrArg List.length (highSamples_eq_tailPulse r hH c)).symm
  have husamples : u.samples = p.samples ++ rest := by simp [u, hsamples]
  have hnothing : u.withBits [] u.t0 = u := State.withBits_nil rfl hcount hframe
  have hpulse := run_pulse (s := u) (bs := []) (t := u.t0) (by decide) (tailPulse_inTime r u.t0 hH hmax c) husamples
  rw [hnothing, hlength] at hpulse
  refine ⟨_, (run_succ H hrise).trans hpulse, rfl, rfl, rfl, ?_, ?_⟩
  · change u.samples.drop H = rest
    rw [husamples, List.drop_left' hlength]
  · change framePrefix [p.bit] = _
    rw [framePrefix_singleton, tailPulse_bit r hH hmax c]
    simp only [decide_eq_true_eq]

end Sys2Proof.Machine

/-! The frame reader (42_frame_reader.md): its rows as equations of the whole state, the checksum as a sum of bytes, the
edges of its table of states, and a whole acquisition in time. -/

namespace Sys2Proof.Machine

/-! The checksum (42_frame_reader.md R160, R161) -/

/-- The five bytes of a frame, first byte at the top (10_state.md R27). -/
theorem frameByte_append (b0 b1 b2 b3 b4 : BitVec 8) :
    let f : Frame := b0 ++ b1 ++ b2 ++ b3 ++ b4
    frameByte f 0 = b0 ∧ frameByte f 1 = b1 ∧ frameByte f 2 = b2 ∧ frameByte f 3 = b3 ∧ frameByte f 4 = b4 := by
  intro f
  refine ⟨?_, ?_, ?_, ?_, ?_⟩
  all_goals
    apply BitVec.eq_of_getLsbD_eq
    intro i hi
    simp only [frameByte, f, BitVec.getLsbD_extractLsb', BitVec.getLsbD_append, hi]
    grind

/-- The checksum test adds the first four bytes. -/
theorem checksumOk_append (b0 b1 b2 b3 b4 : BitVec 8) :
    checksumOk (b0 ++ b1 ++ b2 ++ b3 ++ b4) = (b0 + b1 + b2 + b3 == b4) := by
  obtain ⟨h0, h1, h2, h3, h4⟩ := frameByte_append b0 b1 b2 b3 b4
  rw [checksumOk, h0, h1, h2, h3, h4]

/-- Sums of bytes wrap around at 256. -/
theorem byteSum_eq_iff (b0 b1 b2 b3 b4 : BitVec 8) :
    (b0 + b1 + b2 + b3 == b4) = true ↔ (b0.toNat + b1.toNat + b2.toNat + b3.toNat) % 256 = b4.toNat := by
  simp only [beq_iff_eq, ← BitVec.toNat_inj, BitVec.toNat_add, Nat.mod_add_mod]

/-! The rows -/

/-- A hold, in the rules' words (40_busy_wait.md R102). -/
theorem State.hold_eq (d : Nat) (complete : State → State) (s : State) :
    s.hold d complete =
      if d ≤ (s.sample.usNow - s.t0).toNat then complete s else { s with done := false } := rfl

theorem exec_startLow_eq_hold (s : State) :
    exec .startLow s = .next (s.hold 20000 fun s => { s with lineOut := true }.enter .startHigh) := rfl

theorem exec_startHigh_eq_hold (s : State) :
    exec .startHigh s = .next (s.hold 30 fun s => s.release.enter .hsLow) := rfl

theorem exec_hsLow_eq_waitLevel (s : State) :
    exec .hsLow s = .next (s.waitLevel false 100 .timeoutHsLow (·.enter .hsHigh)) := rfl

theorem exec_hsHigh_eq_waitLevel (s : State) :
    exec .hsHigh s = .next (s.waitLevel true 100 .timeoutHsHigh (·.enter .bitHigh)) := rfl

theorem exec_validate_eq (s : State) : exec .validate s = .next s.validateStep := rfl

/-! The command outside IDLE (42_frame_reader.md R143) -/

/-- Outside IDLE the command selects nothing (30_encoding.md R89). -/
theorem decodeStep_cmd_of_ne_idle (rst : Bool) {q : FsmState} (hq : q ≠ .idle) (c d : BitVec 2) :
    decodeStep rst q c = decodeStep rst q d := by
  cases q with
  | idle => exact absurd rfl hq
  | _ => rfl

theorem decodeStep_ne_idle (rst : Bool) (q : FsmState) (c : BitVec 2) : decodeStep rst q c ≠ .idle := by
  revert c
  cases rst <;> cases q <;> decide

/-- Only the IDLE row reads the command. -/
theorem effect_advance_cmd {i : Instr} (hi : i ≠ .idle) (s : State) (x : Sample) (xs : List Sample) (c : BitVec 2) :
    (effect i (s.placing ({ x with cmd := c } :: xs))).advance = (effect i (s.placing (x :: xs))).advance := by
  cases i with
  | idle => exact absurd rfl hi
  | rst | nop | acquire | reservedCmd2 | reservedCmd3 => rfl
  | startLow | startHigh => exact State.hold_congr State.advance _ rfl rfl rfl
  | hsLow | hsHigh | bitHigh | bitLow => exact State.waitLevel_congr State.advance _ _ _ rfl rfl rfl rfl rfl
  | validate =>
    simp only [effect, State.validateStep, apply_ite State.advance]
    rfl

/-! The table of states (42_frame_reader.md R140) -/

/-- A reset step leads to IDLE (70_reset_and_hazards.md R230). -/
theorem step_state_of_rst {s t : State} (hrst : s.sample.rst = true) (hstep : step s = .next t) :
    t.state = .idle := by
  rw [step_next_iff, effect_currentInstr, if_pos hrst] at hstep
  rw [hstep]
  rfl

/-- IDLE accepts an ACQUIRE, and clears DONE on any other command (30_encoding.md R89). -/
theorem effect_of_idle {s : State} (hrst : s.sample.rst = false) (hidle : s.state = .idle) :
    effect s.currentInstr s = if s.sample.cmd = 0b01 then s.acceptAcquire else s.noRequest := by
  simp [effect_currentInstr, hrst, hidle]

/-- IDLE is left only by the ACQUIRE it accepts (42_frame_reader.md R141, R142). -/
theorem step_of_idle {s t : State} (hrst : s.sample.rst = false) (hidle : s.state = .idle)
    (hstep : step s = .next t) : (s.sample.cmd = 0b01 ∧ t.state = .startLow) ∨ t.state = .idle := by
  rw [step_next_iff, effect_of_idle hrst hidle] at hstep
  subst hstep
  by_cases hcmd : s.sample.cmd = 0b01
  · exact .inl ⟨hcmd, by rw [if_pos hcmd]; rfl⟩
  · exact .inr (by rw [if_neg hcmd]; exact hidle)

/-- What a step without reset can leave outside IDLE, by STATE: `State.Leaves` of STATE's row. -/
inductive State.Moves (s : State) : State → Prop
  | stay (hs : s.state ≠ .validate) : s.Moves s.clearDone
  | endLowHold (hs : s.state = .startLow) : s.Moves ({ s with lineOut := true }.enter .startHigh)
  | endHighHold (hs : s.state = .startHigh) : s.Moves (s.release.enter .hsLow)
  | proceed {r : FsmState} (hs : (s.state, r) ∈ waitMoves) : s.Moves (s.enter r)
  | takeBit (hs : s.state = .bitLow) : s.Moves s.takeBit
  | timeout {l : Bool} {o : OutcomeCode} (hs : awaited s.state = some (l, o)) : s.Moves (s.finish o)
  | publish (hs : s.state = .validate) : s.Moves (s.publish.finish .success)
  | mismatch (hs : s.state = .validate) : s.Moves (s.finish .checksumMismatch)

theorem State.Leaves.moves {s t : State} (hl : s.Leaves (instrOfState s.state) t) (hbusy : s.state ≠ .idle) :
    s.Moves t := by
  generalize hi : instrOfState s.state = i at hl
  have hrow {q : FsmState} (hq : i = instrOfState q) : s.state = q := instrOfState_injective (hi.trans hq)
  cases hl with
  | reset => exact absurd hi (instrOfState_ne_rst _)
  | accept hcmd =>
    obtain rfl | rfl := hcmd
    · exact absurd hi.symm (decodeCmd_ne_instrOfState 0b01 _)
    · exact absurd (hrow (q := .idle) rfl) hbusy
  | stay hstay =>
    obtain ⟨-, -, hvalidate⟩ := hstay
    exact .stay fun hs => hvalidate (by rw [← hi, hs, instrOfState])
  | endLowHold => exact .endLowHold (hrow (q := .startLow) rfl)
  | endHighHold => exact .endHighHold (hrow (q := .startHigh) rfl)
  | proceed hqr => exact .proceed (hrow rfl ▸ hqr)
  | takeBit => exact .takeBit (hrow (q := .bitLow) rfl)
  | timeout hq => exact .timeout (hrow rfl ▸ hq)
  | publish => exact .publish (hrow (q := .validate) rfl)
  | mismatch => exact .mismatch (hrow (q := .validate) rfl)

/-- Inversion of a step without reset outside IDLE. -/
theorem step_moves {s t : State} (hrst : s.sample.rst = false) (hbusy : s.state ≠ .idle) (hstep : step s = .next t) :
    ∃ u, s.Moves u ∧ t = u.advance := by
  rw [step_of_busy hrst hbusy] at hstep
  cases hstep
  exact ⟨_, (effect_leaves _ s).moves hbusy, rfl⟩

/-- STATE follows the table's edges. -/
theorem State.Moves.mem_successors {s t : State} (hm : s.Moves t) : t.state ∈ successors s.state := by
  cases hm with
  | stay hs => cases hq : s.state <;> simp [hq, successors] at hs ⊢
  | endLowHold hs => simp [hs, successors]
  | endHighHold hs => simp [hs, successors]
  | proceed hqr =>
    obtain ⟨hs, rfl⟩ | ⟨hs, rfl⟩ | ⟨hs, rfl⟩ | ⟨hs, rfl⟩ := waitMoves_cases hqr <;> simp [hs, successors]
  | takeBit hs =>
    obtain ⟨ht, -⟩ | ⟨ht, -⟩ := s.takeBit_state <;> simp [hs, ht, successors]
  | timeout hq => cases hs : s.state <;> simp [hs, awaited, successors] at hq ⊢
  | publish hs => simp [hs, successors]
  | mismatch hs => simp [hs, successors]

/-- A wait ends in IDLE with its own timeout only (40_busy_wait.md R103). -/
theorem State.Moves.outcome_of_awaited {s t : State} {l : Bool} {o : OutcomeCode} (hm : s.Moves t)
    (hwait : awaited s.state = some (l, o)) (hidle : t.state = .idle) : t.outcome = o := by
  cases hm with
  | stay =>
    have hs : s.state = .idle := hidle
    simp [hs, awaited] at hwait
  | endLowHold => simp at hidle
  | endHighHold => simp at hidle
  | proceed hqr => obtain ⟨-, rfl⟩ | ⟨-, rfl⟩ | ⟨-, rfl⟩ | ⟨-, rfl⟩ := waitMoves_cases hqr <;> simp at hidle
  | takeBit => exact absurd hidle s.takeBit_state_ne.2
  | timeout hq =>
    obtain ⟨-, rfl⟩ : _ ∧ _ = o := by simpa [hq] using hwait
    rfl
  | publish hs => simp [hs, awaited] at hwait
  | mismatch hs => simp [hs, awaited] at hwait

/-- Out of BIT_LOW the 40th bit leads to VALIDATE and any other to BIT_HIGH (41_bit_decoder.md R122). -/
theorem State.Moves.of_bitLow {s t : State} (hm : s.Moves t) (hs : s.state = .bitLow) :
    (t.state = .validate → s.bitcount.toNat = 39) ∧ (t.state = .bitHigh → s.bitcount.toNat ≠ 39) := by
  cases hm with
  | stay => simp [hs]
  | endLowHold => simp
  | endHighHold => simp
  | proceed hqr => simp [hs, waitMoves] at hqr
  | takeBit =>
    have hlast : s.bitcount.toNat + 1 = Config.N_BITS ↔ s.bitcount.toNat = 39 := Nat.succ_inj
    obtain ⟨ht, hcount⟩ | ⟨ht, hcount⟩ := s.takeBit_state
    · simp [ht, hlast.mp hcount]
    · simp [ht, mt hlast.mpr hcount]
  | timeout => simp
  | publish => simp
  | mismatch => simp

/-- VALIDATE ends in one of its two outcomes (42_frame_reader.md R150). -/
theorem State.Moves.outcome_of_validate {s t : State} (hm : s.Moves t) (hs : s.state = .validate) :
    t.outcome = .success ∨ t.outcome = .checksumMismatch := by
  cases hm with
  | stay hstay => exact absurd hs hstay
  | endLowHold h => simp [h] at hs
  | endHighHold h => simp [h] at hs
  | proceed hqr => simp [hs, waitMoves] at hqr
  | takeBit h => simp [h] at hs
  | timeout hq => simp [hs, awaited] at hq
  | publish => exact .inl rfl
  | mismatch => exact .inr rfl

/-! The phases of an acquisition (42_frame_reader.md R151) -/

/-- A wait has itself and the rest of the acquisition ahead of it. -/
theorem State.Inv.phasesLeft_pos {s : State} {l : Bool} {o : OutcomeCode} (h : s.Inv)
    (hwait : awaited s.state = some (l, o)) : 0 < phasesLeft s.state s.bitcount.toNat := by
  have hlt : s.state = .bitHigh ∨ s.state = .bitLow → s.bitcount.toNat < 40 := h.countReading
  cases hs : s.state <;> simp [hs, awaited, phasesLeft] at hwait hlt ⊢
  case bitHigh | bitLow => omega

/-- Whatever leaves a state, or counts a bit, has fewer phases ahead. -/
theorem State.Moves.stays_or_phasesLeft_lt {s t : State} (hm : s.Moves t) (h : s.Inv) :
    (t.state = s.state ∧ t.bitcount = s.bitcount) ∨
    phasesLeft t.state t.bitcount.toNat < phasesLeft s.state s.bitcount.toNat := by
  cases hm with
  | stay => exact .inl ⟨rfl, rfl⟩
  | endLowHold hs => exact .inr (by simp [hs, phasesLeft])
  | endHighHold hs => exact .inr (by simp [hs, phasesLeft])
  | proceed hqr =>
    obtain ⟨hs, rfl⟩ | ⟨hs, rfl⟩ | ⟨hs, rfl⟩ | ⟨hs, rfl⟩ := waitMoves_cases hqr
    · exact .inr (by simp [hs, phasesLeft])
    · exact .inl ⟨hs.symm, rfl⟩
    · exact .inr (by simp only [hs, State.enter_state, State.enter_bitcount, phasesLeft]; omega)
    · have hlt : s.bitcount.toNat < 40 := h.countReading (.inl hs)
      exact .inr (by simp only [hs, State.enter_state, State.enter_bitcount, phasesLeft]; omega)
  | takeBit hs =>
    have hlt : s.bitcount.toNat < 40 := h.countReading (.inr hs)
    have hcount := s.takeBit_bitcount hlt
    obtain ⟨ht, hlast⟩ | ⟨ht, hlast⟩ := s.takeBit_state
    all_goals
      simp only [Config.N_BITS] at hlast
      simp only [hs, ht, hcount, phasesLeft]
      omega
  | timeout hq => exact .inr (h.phasesLeft_pos hq)
  | publish hs => exact .inr (by simp [hs, phasesLeft])
  | mismatch hs => exact .inr (by simp [hs, phasesLeft])

/-! A whole acquisition in time (42_frame_reader.md R142 to R150) -/

/-- The block with an acquisition under way and no bit read: STATE, T0, the drive and the environment's samples are
all that ACQUIRE and the phases after it have not cleared (42_frame_reader.md R142). -/
def acquiring (q : FsmState) (t0 : Time) (oe out : Bool) (xs : List Sample) (n : Nat) : State :=
  { State.reset with state := q, t0 := t0, lineOe := oe, lineOut := out, samples := xs, tick := n }

/-- An accepted ACQUIRE clears what the block held before (42_frame_reader.md R142). -/
theorem step_acquire {s : State} {x : Sample} {xs : List Sample} (hidle : s.state = .idle)
    (hs : s.samples = x :: xs) (hrst : x.rst = false) (hcmd : x.cmd = 0b01) :
    step s = .next (acquiring .startLow x.usNow true false xs (s.tick + 1)) := by
  have hx : s.sample = x := State.sample_of_cons hs
  rw [step_eq_effect, effect_of_idle (by rwa [hx]) hidle, if_pos (by rwa [hx]), State.acceptAcquire, State.advance]
  simp [hs, hx, State.now, acquiring, State.reset]

/-- START_LOW at its time drives the line high (42_frame_reader.md R144). -/
theorem step_startLow_due {s : State} (hstate : s.state = .startLow) (hrst : s.sample.rst = false)
    (htime : 20000 ≤ s.elapsedUs) : step s = .next ({ s with lineOut := true }.enter .startHigh).advance := by
  have hrow : instrOfState s.state = .startLow := by rw [hstate, instrOfState]
  have hends : effect .startLow s = { s with lineOut := true }.enter .startHigh := if_pos htime
  rw [step_of_busy hrst (by simp [hstate]), hrow, hends]

/-- START_HIGH at its time releases the line (42_frame_reader.md R145). -/
theorem step_startHigh_due {s : State} (hstate : s.state = .startHigh) (hrst : s.sample.rst = false)
    (htime : 30 ≤ s.elapsedUs) : step s = .next (s.release.enter .hsLow).advance := by
  have hrow : instrOfState s.state = .startHigh := by rw [hstate, instrOfState]
  have hends : effect .startHigh s = s.release.enter .hsLow := if_pos htime
  rw [step_of_busy hrst (by simp [hstate]), hrow, hends]

/-- HS_LOW at the fall goes to HS_HIGH (42_frame_reader.md R147). -/
theorem step_hsFall {s : State} (hstate : s.state = .hsLow) (hedge : edge false s.sample) :
    step s = .next (s.enter .hsHigh).advance := by
  obtain ⟨hrst, hlevel⟩ := hedge
  have hfall : s.hsLowStep = s.enter .hsHigh := State.waitLevel_of_level _ _ _ hlevel
  rw [step_of_busy hrst (by simp [hstate]), hstate, instrOfState, effect, hfall]

/-- The step that ends a hold or wait does not see whether a stay has cleared DONE. -/
theorem run_succ_of_stays {s u : State} {k : Nat} (hstays : ∃ b, run k s = .next { s.skip k with done := b })
    (hstep : step (s.skip k) = .next u) : run (k + 1) s = .next u := by
  obtain ⟨b, hrun⟩ := hstays
  calc run (k + 1) s
      = run 1 { s.skip k with done := b } := run_add k 1 hrun
    _ = run 1 (s.skip k).clearDone := (run_clearDone 0 _).symm
    _ = run 1 (s.skip k) := run_clearDone 0 _
    _ = .next u := run_succ 0 hstep

/-- A phase is the samples that leave it in progress, then the step that ends it. -/
theorem run_phase {q : FsmState} {t0 : Time} {oe out : Bool} {xs ys : List Sample} {n : Nat} {u : State}
    (hstays : ∃ b, run xs.length (acquiring q t0 oe out (xs ++ ys) n) =
      .next { (acquiring q t0 oe out (xs ++ ys) n).skip xs.length with done := b })
    (hstep : step (acquiring q t0 oe out ys (n + xs.length)) = .next u) :
    run (xs.length + 1) (acquiring q t0 oe out (xs ++ ys) n) = .next u := by
  have hskip : (acquiring q t0 oe out (xs ++ ys) n).skip xs.length = acquiring q t0 oe out ys (n + xs.length) := by
    simp [acquiring, State.skip]
  exact run_succ_of_stays hstays (hskip ▸ hstep)

theorem run_startLow {t0 : Time} {x : Sample} {xs : List Sample} (rest : List Sample) (n : Nat)
    (hxs : holds t0 20000 xs) (hx : x.rst = false ∧ 20000 ≤ (elapsed t0 x.usNow).toNat) :
    run (xs.length + 1) (acquiring .startLow t0 true false (xs ++ x :: rest) n) =
      .next (acquiring .startHigh x.usNow true true rest (n + xs.length + 1)) :=
  run_phase (run_hold_stays rfl hxs rfl le_rfl) (step_startLow_due rfl hx.1 hx.2)

theorem run_startHigh {t0 : Time} {x : Sample} {xs : List Sample} (rest : List Sample) (n : Nat)
    (hxs : holds t0 30 xs) (hx : x.rst = false ∧ 30 ≤ (elapsed t0 x.usNow).toNat) :
    run (xs.length + 1) (acquiring .startHigh t0 true true (xs ++ x :: rest) n) =
      .next (acquiring .hsLow x.usNow false true rest (n + xs.length + 1)) :=
  run_phase (run_hold_stays rfl hxs rfl le_rfl) (step_startHigh_due rfl hx.1 hx.2)

theorem run_hsLow {t0 : Time} {x : Sample} {xs : List Sample} (rest : List Sample) (n : Nat)
    (hxs : polls true t0 100 xs) (hx : edge false x) :
    run (xs.length + 1) (acquiring .hsLow t0 false true (xs ++ x :: rest) n) =
      .next (acquiring .hsHigh x.usNow false true rest (n + xs.length + 1)) :=
  run_phase (run_wait_stays (l := false) rfl (by exact hxs) rfl le_rfl) (step_hsFall rfl hx)

theorem run_hsHigh {t0 : Time} {x : Sample} {xs : List Sample} (rest : List Sample) (n : Nat)
    (hxs : polls false t0 100 xs) (hx : edge true x) :
    run (xs.length + 1) (acquiring .hsHigh t0 false true (xs ++ x :: rest) n) =
      .next (acquiring .bitHigh x.usNow false true rest (n + xs.length + 1)) :=
  run_phase (run_wait_stays (l := true) rfl (by exact hxs) rfl le_rfl) (step_hsRise rfl hx)

/-- The number of samples up to the handshake's rise, after which the pulses begin. -/
def Waveform.lead (w : Waveform) : Nat :=
  1 + (w.lowHold.length + 1) + (w.highHold.length + 1) + (w.hsHighs.length + 1) + (w.hsLows.length + 1)

theorem Waveform.length_samples (w : Waveform) :
    w.samples.length = w.lead + ((w.pulses.flatMap Pulse.samples).length + 1) := by
  simp only [Waveform.samples, Waveform.lead, List.length_cons, List.length_append, List.length_nil]
  omega

/-- The start signal and the handshake in time leave the block in BIT_HIGH with nothing read. -/
theorem run_lead {s : State} {w : Waveform} {rest : List Sample} (hidle : s.state = .idle) (hw : w.InTime)
    (hs : s.samples = w.samples ++ rest) :
    ∃ n, run w.lead s = .next (acquiring .bitHigh w.hsRise.usNow false true
      (w.pulses.flatMap Pulse.samples ++ w.check :: rest) n) := by
  obtain ⟨hrst, hcmd⟩ := hw.acquire
  simp only [Waveform.samples, List.cons_append, List.append_assoc, List.nil_append] at hs
  have hacquire : run 1 s = .next _ := run_succ 0 (step_acquire hidle hs hrst hcmd)
  have hlow := (run_add _ _ hacquire).trans (run_startLow _ _ hw.lowHold hw.lowEnd)
  have hhigh := (run_add _ _ hlow).trans (run_startHigh _ _ hw.highHold hw.highEnd)
  have hfall := (run_add _ _ hhigh).trans (run_hsLow _ _ hw.hsHighs hw.hsFall)
  exact ⟨_, (run_add _ _ hfall).trans (run_hsHigh _ _ hw.hsLows hw.hsRise)⟩

/-- The duty along a run is the duty along its rest (70_reset_and_hazards.md R234). -/
theorem State.keepsDuty_of_run {s u : State} {m n : Nat} (h : s.keepsDuty (m + n)) (hrun : run m s = .next u) :
    u.keepsDuty n := by
  intro k hk t ht
  exact h (m + k) (by omega) t ((run_add m k hrun).trans ht)

/-! The statements -/

/-- Settles O3: the three commands make no request. -/
theorem nopAndReservedCommandsOnlyClearDone : Obligations.NopAndReservedCommandsOnlyClearDone := by
  rintro s i (rfl | rfl | rfl) <;> rfl

/-- Settles O4: ACQUIRE's row is `acceptAcquire`. -/
theorem acquireStartsAcquisition : Obligations.AcquireStartsAcquisition := fun _ => rfl

/-- Settles O6: START_LOW's row is the hold that drives the line high. -/
theorem startLowHoldsThenDrivesHigh : Obligations.StartLowHoldsThenDrivesHigh := by
  intro s
  rw [exec_startLow_eq_hold, State.hold_eq]
  rfl

/-- Settles O7: START_HIGH's row is the hold that releases the line. -/
theorem startHighHoldsThenReleases : Obligations.StartHighHoldsThenReleases := by
  intro s
  rw [exec_startHigh_eq_hold, State.hold_eq]
  rfl

/-- Settles O8: HS_LOW's row is the level wait whose success enters HS_HIGH. -/
theorem hsLowWaitsForLow : Obligations.HsLowWaitsForLow := by
  intro s
  rw [exec_hsLow_eq_waitLevel, State.waitLevel_eq]
  rfl

/-- Settles O9: HS_HIGH's row is the level wait whose success enters BIT_HIGH. -/
theorem hsHighWaitsForHigh : Obligations.HsHighWaitsForHigh := by
  intro s
  rw [exec_hsHigh_eq_waitLevel, State.waitLevel_eq]
  rfl

/-- Settles O13: the 8-bit sum is the sum modulo 256, and the words are the frame's fields. -/
theorem validateChecksAndPublishes : Obligations.ValidateChecksAndPublishes := by
  intro s
  rw [exec_validate_eq, State.validateStep]
  simp only [checksumOk, byteSum_eq_iff, State.publish, State.finish, humidityWord_eq, temperatureWord_eq]
  rfl

/-- Settles O38: the frame's bytes are the five bytes, and their 8-bit sum wraps around at 256. -/
theorem checksumIsSumModulo256 : Obligations.ChecksumIsSumModulo256 := by
  intro b0 b1 b2 b3 b4
  rw [checksumOk_append, byteSum_eq_iff]

/-- Settles O39: addition of bytes is commutative, so permuted bytes have the same sum. -/
theorem checksumIgnoresByteOrder : Obligations.ChecksumIgnoresByteOrder := by
  intro b0 b1 b2 b3 c0 c1 c2 c3 b4 hperm
  have hsum : b0 + b1 + b2 + b3 = c0 + c1 + c2 + c3 := by
    simpa [add_assoc] using hperm.sum_eq
  rw [checksumOk_append, checksumOk_append, hsum]

/-- Settles O24: the command selects no operation outside IDLE, and the selected one does not read it. -/
theorem commandIgnoredOutsideIdle : Obligations.CommandIgnoredOutsideIdle := by
  intro s x xs c hbusy _ _
  have hsame : (s.placing ({ x with cmd := c } :: xs)).currentInstr = (s.placing (x :: xs)).currentInstr :=
    decodeStep_cmd_of_ne_idle x.rst hbusy c x.cmd
  have hrow : (s.placing (x :: xs)).currentInstr ≠ .idle := decodeStep_ne_idle x.rst s.state x.cmd
  change step (s.placing (x :: xs)) = step (s.placing ({ x with cmd := c } :: xs))
  rw [step_eq_effect, step_eq_effect, hsame, effect_advance_cmd hrow s x xs c]

/-- Settles O27: every move out of a phase leads to a later one, and a stay keeps STATE and BITCOUNT. -/
theorem acquisitionNeverReturnsToEarlierPhase : Obligations.AcquisitionNeverReturnsToEarlierPhase := by
  intro s t _ hinv hstep hrst hbusy
  obtain ⟨u, hm, rfl⟩ := step_moves hrst hbusy hstep
  exact hm.stays_or_phasesLeft_lt hinv

/-- Settles O18: reset and IDLE by R89, and outside IDLE by what STATE's row can leave. -/
theorem stateMovesAlongTableEdges : Obligations.StateMovesAlongTableEdges := by
  intro s t _ hstep
  refine ⟨fun hrst => step_state_of_rst hrst hstep, fun hrst => ?_⟩
  by_cases hidle : s.state = .idle
  · obtain ⟨hcmd, ht⟩ | ht := step_of_idle hrst hidle hstep
    · simp [hidle, ht, hcmd, successors]
    · simp [hidle, ht, successors]
  · obtain ⟨u, hm, rfl⟩ := step_moves hrst hidle hstep
    refine ⟨hm.mem_successors, fun h => absurd h hidle, ?hsLow, ?hsHigh, ?bit, ?last, ?validate,
      hm.outcome_of_validate⟩
    case hsLow => exact fun hs => hm.outcome_of_awaited (congrArg awaited hs)
    case hsHigh => exact fun hs => hm.outcome_of_awaited (congrArg awaited hs)
    case bit =>
      rintro (hs | hs)
      · exact hm.outcome_of_awaited (congrArg awaited hs)
      · exact hm.outcome_of_awaited (congrArg awaited hs)
    case last => exact fun hs hcount hbit => (hm.of_bitLow hs).2 hbit hcount
    case validate => exact fun hs => (hm.of_bitLow hs).1

/-- Settles O43: the start signal and the handshake lead to BIT_HIGH with nothing read, and from there the forty pulses
are the frame. -/
theorem acquisitionDeliversReading : Obligations.AcquisitionDeliversReading := by
  intro s w rest hidle hw hs hduty f
  obtain ⟨n, hlead⟩ := run_lead hidle hw hs
  rw [w.length_samples] at hduty ⊢
  have hread := fortyPulsesAreTheFrame _ w.pulses w.check rest rfl rfl rfl hw.count hw.pulses hw.check rfl
    (State.keepsDuty_of_run hduty hlead)
  refine ⟨_, (run_add _ _ hlead).trans hread, ?_⟩
  by_cases hsum : checksumOk f = true
  · simp [f, hsum, acquiring]
  · simp [f, hsum, acquiring, State.reset]

end Sys2Proof.Machine

/-! The value model (43_value_model.md): the temperature word as a signed number of tenths, its two's complement, and the
exact reading that the words hold. -/

namespace Sys2Proof.Machine

/-! The signed tenths of a temperature word (43_value_model.md R181, R182) -/

/-- R182's integer `sign ? -mag : mag`. -/
def signedTenths (w : Half) : Int :=
  if tempSign w then -(tempMag w : Int) else tempMag w

theorem tempMag_eq_mod (w : Half) : tempMag w = w.toNat % 2 ^ 15 := by
  simp [tempMag]

theorem tempMag_lt (w : Half) : tempMag w < 2 ^ 15 := (w.extractLsb' 0 15).isLt

/-- A sign and 15 bits of magnitude stay one short of the least 16-bit number. -/
theorem signedTenths_bounds (w : Half) : -2 ^ 15 < signedTenths w ∧ signedTenths w < 2 ^ 15 := by
  have hmag := tempMag_lt w
  unfold signedTenths
  split <;> omega

/-- 43_value_model.md R182: both branches of `temp_x10` encode one integer, the negative one by its complement to
2^16. -/
theorem tempX10_eq_ofInt (w : Half) : tempX10 w = BitVec.ofInt 16 (signedTenths w) := by
  have hmag := tempMag_lt w
  unfold tempX10 signedTenths
  split
  case isTrue =>
    apply BitVec.eq_of_toNat_eq
    rw [BitVec.toNat_ofNat, BitVec.toNat_ofInt]
    omega
  case isFalse => exact (BitVec.ofInt_natCast 16 (tempMag w)).symm

theorem tempX10_toInt (w : Half) : (tempX10 w).toInt = signedTenths w := by
  obtain ⟨hlow, hhigh⟩ := signedTenths_bounds w
  rw [tempX10_eq_ofInt]
  exact BitVec.toInt_ofInt_eq_self (by decide) hlow.le hhigh

/-- 43_value_model.md R183: 0x8000 is -2^15, which no magnitude of 15 bits reaches. -/
theorem tempX10_ne_0x8000 (w : Half) : tempX10 w ≠ 0x8000 := by
  intro heq
  have hmin : signedTenths w = -2 ^ 15 := by
    rw [← tempX10_toInt, heq]
    decide
  exact (signedTenths_bounds w).1.ne' hmin

/-! The exact reading (43_value_model.md R180, R181) -/

theorem Reading.humidity_mul_ten (r : Reading) : r.humidity * 10 = r.humTenths :=
  div_mul_cancel₀ _ (by norm_num)

theorem State.reading_temperature_mul_ten (s : State) : s.reading.temperature * 10 = (signedTenths s.tempR : ℚ) := by
  have hmag : (tempMag s.tempR : ℚ) / 10 * 10 = tempMag s.tempR := div_mul_cancel₀ _ (by norm_num)
  by_cases hsign : tempSign s.tempR = true
  · simp [Reading.temperature, State.reading, signedTenths, hsign, hmag]
  · simp [Reading.temperature, State.reading, signedTenths, hsign, hmag]

/-! The statements -/

/-- Settles O40: the signed tenths are the word's sign and low 15 bits. -/
theorem tenthsAreSignedMagnitude : Obligations.TenthsAreSignedMagnitude := by
  intro w
  refine ⟨?_, tempX10_ne_0x8000 w⟩
  rw [tempX10_toInt, signedTenths, tempMag_eq_mod, tempSign]

/-- Settles O41: the exact values times ten are HUM_R and the signed tenths of TEMP_R. -/
theorem wordsGiveExactReading : Obligations.WordsGiveExactReading := by
  intro s hx10
  refine ⟨s.reading.humidity_mul_ten, ?_⟩
  rw [hx10, tempX10_toInt, s.reading_temperature_mul_ten]

end Sys2Proof.Machine

/-! The outcomes (60_exceptions.md): what each outcome records, no reading without SUCCESS, and an acquisition that
starts from what ACQUIRE leaves. -/

namespace Sys2Proof.Machine

/-! What an outcome records (60_exceptions.md R200) -/

theorem State.Recorded.of_outcome_none {s : State} (h : s.outcome = .none) : s.Recorded where
  success := by simp [h]
  checksumMismatch := by simp [h]
  timeoutHandshake := by simp [h]
  timeoutBit := by simp [h]

/-- A handshake can time out only before the first bit, a bit wait only before the last is in. -/
theorem State.Inv.count_of_awaited {s : State} {l : Bool} {o : OutcomeCode} (h : s.Inv)
    (hwait : awaited s.state = some (l, o)) :
    (o = .timeoutHsLow ∨ o = .timeoutHsHigh) ∧ s.bitcount.toNat = 0 ∨
    o = .timeoutBit ∧ s.bitcount.toNat < Config.N_BITS := by
  cases hs : s.state <;> simp only [hs, awaited, Option.some.injEq, Prod.mk.injEq, reduceCtorEq] at hwait
  all_goals obtain ⟨-, rfl⟩ := hwait
  case hsLow => exact .inl ⟨.inl rfl, h.countStart (by simp [hs])⟩
  case hsHigh => exact .inl ⟨.inr rfl, h.countStart (by simp [hs])⟩
  case bitHigh => exact .inr ⟨rfl, h.countReading (.inl hs)⟩
  case bitLow => exact .inr ⟨rfl, h.countReading (.inr hs)⟩

/-- The timeouts (60_exceptions.md R201, R202, R204). -/
theorem State.Inv.timeout_recorded {s : State} {l : Bool} {o : OutcomeCode} (h : s.Inv)
    (hwait : awaited s.state = some (l, o)) : (s.finish o).Recorded := by
  obtain ⟨rfl | rfl, hcount⟩ | ⟨rfl, hcount⟩ := h.count_of_awaited hwait
  all_goals exact ⟨by simp, by simp, by simp [hcount], by simp [hcount]⟩

/-- SUCCESS (60_exceptions.md R206): all 40 bits are in when VALIDATE decodes them. -/
theorem State.Inv.publish_recorded {s : State} (h : s.Inv) (hs : s.state = .validate)
    (hsum : checksumOk s.frame = true) : (s.publish.finish .success).Recorded where
  success := fun _ => ⟨h.countValidate hs, hsum, rfl, rfl, rfl⟩
  checksumMismatch := by simp
  timeoutHandshake := by simp
  timeoutBit := by simp

/-- CHECKSUM_MISMATCH (60_exceptions.md R205). -/
theorem State.Inv.mismatch_recorded {s : State} (h : s.Inv) (hs : s.state = .validate)
    (hsum : checksumOk s.frame = false) : (s.finish .checksumMismatch).Recorded where
  success := by simp
  checksumMismatch := fun _ => ⟨h.countValidate hs, hsum⟩
  timeoutHandshake := by simp
  timeoutBit := by simp

/-- The selected operation, of the machine or of its variant, keeps the record: it finishes with what its outcome
records, leaves OUTCOME at NONE, or stays and changes nothing but DONE. -/
theorem State.Leaves.recorded {s t : State} (hl : s.Leaves s.currentInstr t) (h : s.Inv) (hr : s.Recorded) :
    t.Recorded := by
  have hrow : ∀ {q : FsmState}, s.currentInstr = instrOfState q → s.state = q := State.state_of_currentInstr
  have hnone : ∀ {q : FsmState}, s.state = q → q ≠ .idle → s.outcome = .none :=
    fun hs hq => (h.busyOutcome (hs ▸ hq)).1
  generalize s.currentInstr = i at hl hrow
  cases hl with
  | reset => exact .of_outcome_none rfl
  | accept => exact .of_outcome_none rfl
  | stay => exact { hr with }
  | endLowHold => exact .of_outcome_none (hnone (hrow (q := .startLow) rfl) (by decide))
  | endHighHold => exact .of_outcome_none (hnone (hrow (q := .startHigh) rfl) (by decide))
  | proceed hqr =>
    refine .of_outcome_none (hnone (hrow rfl) ?_)
    obtain ⟨rfl, -⟩ | ⟨rfl, -⟩ | ⟨rfl, -⟩ | ⟨rfl, -⟩ := waitMoves_cases hqr <;> decide
  | takeBit => exact .of_outcome_none (hnone (hrow (q := .bitLow) rfl) (by decide))
  | timeout hq => exact h.timeout_recorded (hrow rfl ▸ hq)
  | publish hsum => exact h.publish_recorded (hrow (q := .validate) rfl) hsum
  | mismatch hsum => exact h.mismatch_recorded (hrow (q := .validate) rfl) hsum

/-- The record says nothing of the samples. -/
theorem State.Recorded.advance {s : State} (h : s.Recorded) : s.advance.Recorded := { h with }

/-! No reading without SUCCESS (60_exceptions.md R215) -/

/-- 10_state.md R45, items 3 and 4 together. -/
theorem State.Inv.no_reading_of_outcome_ne {s : State} (h : s.Inv) (ho : s.outcome ≠ .success) :
    s.valid = false ∧ s.humR = 0 ∧ s.tempR = 0 ∧ s.tempX10R = 0 := by
  have hvalid : s.valid = false := Bool.eq_false_iff.mpr (mt h.validOutcome.mp ho)
  exact ⟨hvalid, h.noReading hvalid⟩

/-! What an acquisition starts from (60_exceptions.md R216) -/

/-- A step's sample is the environment's: no register decides it (00_scope.md R12). -/
theorem State.sample_congr {s u : State} (hsamples : s.samples = u.samples) (htick : s.tick = u.tick) :
    s.sample = u.sample := by
  rw [State.sample, State.sample, hsamples, htick]

/-- ACQUIRE keeps nothing but the environment's samples, and reads nothing but the time (42_frame_reader.md R142). -/
theorem State.acceptAcquire_eq_acquiring (s : State) :
    s.acceptAcquire = acquiring .startLow s.now true false s.samples s.tick := rfl

/-- Blocks under the same samples are one block once both have accepted an ACQUIRE. -/
theorem State.acceptAcquire_congr {s u : State} (hsamples : s.samples = u.samples) (htick : s.tick = u.tick) :
    s.acceptAcquire = u.acceptAcquire := by
  rw [State.acceptAcquire_eq_acquiring, State.acceptAcquire_eq_acquiring, State.now, State.now,
    State.sample_congr hsamples htick, hsamples, htick]

/-- In IDLE a run whose first step asks for an acquisition goes on from what ACQUIRE leaves. -/
theorem run_succ_of_acquire {s : State} (n : Nat) (hidle : s.state = .idle) (hrst : s.sample.rst = false)
    (hcmd : s.sample.cmd = 0b01) : run (n + 1) s = run n s.acceptAcquire.advance := by
  rw [run_succ_effect, effect_of_idle hrst hidle, if_pos hcmd]

/-! The statements -/

/-- Settles O30: whichever state of `State.Leaves` the selected operation leaves, its outcome's record is met. -/
theorem stepKeepsOutcomeRecord : Obligations.StepKeepsOutcomeRecord := by
  intro s t _ hinv hrec hstep
  rw [step_next_iff] at hstep
  subst hstep
  exact ((effect_leaves s.currentInstr s).recorded hinv hrec).advance

/-- Settles O31: the invariants that the step keeps (O29) leave no reading beside a failure. -/
theorem failureYieldsNoReading : Obligations.FailureYieldsNoReading := by
  intro s t hduty hinv hstep hfailure
  exact (stepKeepsInvariant s t hduty hinv hstep).no_reading_of_outcome_ne hfailure

/-- Settles O32: both blocks read the same sample and accept, and are then in one and the same state. -/
theorem acquisitionsAreIndependent : Obligations.AcquisitionsAreIndependent := by
  intro s u n hs hu hsamples htick hrst hcmd _
  have hsample : s.sample = u.sample := State.sample_congr hsamples htick
  rw [run_succ_of_acquire n hs hrst hcmd, run_succ_of_acquire n hu (hsample ▸ hrst) (hsample ▸ hcmd),
    State.acceptAcquire_congr hsamples htick]

end Sys2Proof.Machine

/-! Reset and termination (70_reset_and_hazards.md): what a reset step leaves; and, from how long a hold or wait can
stay, that no state is occupied for ever and that every acquisition ends, within R241's bound where the sample spacing
is bounded. -/

namespace Sys2Proof.Machine

/-! Reset (R230) -/

theorem step_of_rst {s : State} (hrst : s.sample.rst = true) : step s = .next s.resetStep.advance := by
  rw [step_eq_effect, effect_currentInstr, if_pos hrst]

/-! How long a hold or wait can stay (40_busy_wait.md R102, R103) -/

/-- The duration of a hold state or the timeout of a wait state; 0 in the states that read no time. -/
def duration : FsmState → Nat
  | .startLow => 20000
  | .startHigh => 30
  | .hsLow | .hsHigh | .bitHigh | .bitLow => 100
  | .idle | .validate => 0

theorem duration_of_holding {q r : FsmState} {d : Nat} (h : holding q = some (d, r)) : duration q = d := by
  cases q <;> simp [holding, duration] at h ⊢ <;> exact h.1

theorem duration_of_awaited {q : FsmState} {l : Bool} {o : OutcomeCode} (h : awaited q = some (l, o)) :
    duration q = 100 := by
  cases q <;> simp [awaited, duration] at h ⊢

theorem duration_le (q : FsmState) : duration q ≤ 20000 := by
  cases q <;> decide

theorem ne_idle_of_timed {q : FsmState} (h : timed q = true) : q ≠ .idle := by
  rintro rfl
  exact absurd h (by decide)

/-- An operation past its duration does not stay. -/
theorem elapsedUs_le_of_effect_stays {s : State} (htimed : timed s.state = true)
    (hsame : (effect (instrOfState s.state) s).state = s.state) : s.elapsedUs ≤ duration s.state := by
  obtain ⟨d, r, hq⟩ | ⟨l, o, hq⟩ := timed_iff.mp htimed
  · obtain ⟨hr, complete, hrow⟩ := effect_of_holding hq
    obtain ⟨heffect, hstate, -⟩ := hrow s
    obtain ⟨-, hends⟩ | ⟨hlt, -⟩ := s.hold_cases d complete
    · rw [heffect, hends, hstate] at hsame
      exact absurd hsame hr
    · rw [duration_of_holding hq]
      exact hlt.le
  · obtain ⟨success, hrow⟩ := effect_of_awaited_success hq
    obtain ⟨heffect, hmoves, -⟩ := hrow s
    obtain ⟨-, hends⟩ | ⟨-, -, hends⟩ | ⟨-, hle, -⟩ := s.waitLevel_cases l 100 o success
    · rw [heffect, hends] at hsame
      exact absurd hsame hmoves
    · rw [heffect, hends, State.finish_state] at hsame
      exact absurd hsame.symm (ne_idle_of_timed htimed)
    · rwa [duration_of_awaited hq]

/-- A step that stays in a hold or wait was not past its duration, and clears DONE only (40_busy_wait.md R106,
R108). -/
theorem step_of_stays {s t : State} (htimed : timed s.state = true) (hstep : step s = .next t)
    (hsame : t.state = s.state) : t = s.clearDone.advance ∧ s.elapsedUs ≤ duration s.state := by
  cases hrst : s.sample.rst with
  | true => exact absurd (hsame.symm.trans (step_state_of_rst hrst hstep)) (ne_idle_of_timed htimed)
  | false =>
    rw [step_of_timed hrst htimed] at hstep
    cases hstep
    obtain h | h := effect_of_timed htimed s
    · exact ⟨by rw [h], elapsedUs_le_of_effect_stays htimed hsame⟩
    · exact absurd hsame h

/-- VALIDATE lasts one step (42_frame_reader.md R150). -/
theorem step_state_of_validate {s t : State} (hs : s.state = .validate) (hstep : step s = .next t) :
    t.state = .idle := by
  cases hrst : s.sample.rst with
  | true => exact step_state_of_rst hrst hstep
  | false =>
    rw [step_validate hs hrst] at hstep
    cases hstep
    obtain ⟨-, h⟩ | ⟨-, h⟩ := s.validateStep_cases <;> rw [h] <;> rfl

/-- A step that neither starts nor ends in IDLE starts in a hold or wait. -/
theorem timed_of_busy {s t : State} (hstep : step s = .next t) (hs : s.state ≠ .idle) (ht : t.state ≠ .idle) :
    timed s.state = true := by
  cases hq : s.state with
  | idle => exact absurd hq hs
  | validate => exact absurd (step_state_of_validate hq hstep) ht
  | _ => rfl

/-- How many phases are ahead of the block (42_frame_reader.md R151). -/
def State.phases (s : State) : Nat := phasesLeft s.state s.bitcount.toNat

/-- A step of a running acquisition stays with as many phases ahead, or lowers their number. -/
theorem step_stays_or_phases_lt {s t : State} (hinv : s.Inv) (hrst : s.sample.rst = false) (hbusy : s.state ≠ .idle)
    (hstep : step s = .next t) : t.state = s.state ∧ t.phases = s.phases ∨ t.phases < s.phases := by
  obtain ⟨u, hm, rfl⟩ := step_moves hrst hbusy hstep
  obtain ⟨hq, hn⟩ | hlt := hm.stays_or_phasesLeft_lt hinv
  · exact .inl ⟨hq, congrArg₂ phasesLeft hq (congrArg BitVec.toNat hn)⟩
  · exact .inr hlt

/-- The step that ends an acquisition leaves DONE and, by the invariants, an outcome. -/
theorem step_finishes {s t : State} (hinv : t.Inv) (hstep : step s = .next t) (hrst : s.sample.rst = false)
    (hbusy : s.state ≠ .idle) (hidle : t.state = .idle) : t.outcome ≠ .none ∧ t.done = true :=
  have hdone : t.done = true := (step_done_iff hstep).mpr ⟨hrst, hbusy, hidle⟩
  ⟨(hinv.doneIdle hdone).2, hdone⟩

theorem State.Inv.feed {s : State} (h : s.Inv) (x : Sample) : (s.feed x).Inv := { h with }

/-! The current hold or wait in true time (40_busy_wait.md R100, R101) -/

/-- The current operation of `s` started at true time `start`, and its last poll, at true time `now`, was not past its
duration. -/
structure State.HeldSince (start now : Nat) (s : State) : Prop where
  stamped : s.t0 = BitVec.ofNat 32 start
  order   : start ≤ now
  inTime  : now ≤ start + duration s.state

theorem State.HeldSince.feed {start now : Nat} {s : State} (h : s.HeldSince start now) (x : Sample) :
    (s.feed x).HeldSince start now := { h with }

/-- An operation starts at the sample that enters its state (40_busy_wait.md R105). -/
theorem State.HeldSince.of_entered {s t : State} {now : Nat} (hnow : s.now = BitVec.ofNat 32 now)
    (hstep : step s = .next t) (hmoved : t.state ≠ s.state) (htimed : timed t.state = true) :
    t.HeldSince now now := by
  rw [step_next_iff] at hstep
  subst hstep
  exact ⟨((effect_leaves s.currentInstr s).t0_of_entered hmoved htimed).trans hnow, le_rfl, by omega⟩

/-- A poll within the timer's range that leaves the operation in progress was in time. -/
theorem State.HeldSince.of_stays {s t : State} {start now later : Nat} (h : s.HeldSince start now)
    (hle : now ≤ later) (hwrap : later < start + 2 ^ 32) (hlater : s.now = BitVec.ofNat 32 later)
    (htimed : timed s.state = true) (hstep : step s = .next t) (hsame : t.state = s.state) :
    t.HeldSince start later := by
  obtain ⟨ht, htime⟩ := step_of_stays htimed hstep hsame
  have horder : start ≤ later := h.order.trans hle
  have helapsed : s.elapsedUs = later - start := by
    rw [State.elapsedUs, h.stamped, hlater]
    exact elapsedIsTrueTime start later horder (by omega)
  refine ⟨by rw [ht]; exact h.stamped, horder, ?_⟩
  rw [hsame]
  omega

/-! The states of a run on a sequence of samples -/

/-- The state after n steps on the sequence. -/
def stateOn (x : Nat → Sample) (s : State) : Nat → State
  | 0 => s
  | n + 1 => (effect ((stateOn x s n).feed (x n)).currentInstr ((stateOn x s n).feed (x n))).advance

theorem step_stateOn (x : Nat → Sample) (s : State) (n : Nat) :
    step ((stateOn x s n).feed (x n)) = .next (stateOn x s (n + 1)) := step_eq_effect _

/-- An ACQUIRE that no reset overrides is accepted (42_frame_reader.md R142). -/
theorem stateOn_succ_of_acquire {x : Nat → Sample} {s : State} {n : Nat} (hidle : (stateOn x s n).state = .idle)
    (hrst : (x n).rst = false) (hcmd : (x n).cmd = 0b01) :
    stateOn x s (n + 1) = acquiring .startLow (x n).usNow true false [] ((stateOn x s n).tick + 1) :=
  have haccept := step_acquire (s := (stateOn x s n).feed (x n)) hidle rfl hrst hcmd
  Host.Outcome.next.inj ((step_stateOn x s n).symm.trans haccept)

theorem runOn_eq_stateOn (x : Nat → Sample) (s : State) (n : Nat) : runOn x n s = .next (stateOn x s n) := by
  induction n with
  | zero => rfl
  | succ n ih => rw [runOn_succ ih, step_stateOn]

theorem exists_runOn_iff {x : Nat → Sample} {s : State} {n : Nat} {P : State → Prop} :
    (∃ t, runOn x n s = .next t ∧ P t) ↔ P (stateOn x s n) := by
  rw [runOn_eq_stateOn]
  constructor
  · rintro ⟨t, ht, hP⟩
    cases ht
    exact hP
  · exact fun hP => ⟨_, rfl, hP⟩

/-- The placed samples as a sequence, a quiet sample where none is placed. -/
def State.placedAt (s : State) (k : Nat) : Sample := s.samples.getD k quietSample

theorem State.getElem?_eq_placedAt (s : State) {k : Nat} (hk : k < s.samples.length) :
    s.samples[k]? = some (s.placedAt k) := by
  simp [State.placedAt, hk]

theorem State.placedAt_zero (s : State) (h : 0 < s.samples.length) : s.placedAt 0 = s.sample := by
  cases hs : s.samples with
  | nil => simp [hs] at h
  | cons x xs => simp [State.placedAt, State.sample, hs]

/-- A sequence of placed samples without reset has none, since the quiet sample has none. -/
theorem State.placedAt_rst (s : State) (h : ∀ x ∈ s.samples, x.rst = false) (k : Nat) :
    (s.placedAt k).rst = false := by
  by_cases hk : k < s.samples.length
  · exact h _ (List.mem_of_getElem? (s.getElem?_eq_placedAt hk))
  · simp [State.placedAt, hk, quietSample]

/-- A run on placed samples is the run on their sequence. -/
theorem run_eq_stateOn {s : State} {k : Nat} (hk : k ≤ s.samples.length) :
    run k s = .next { stateOn s.placedAt s k with samples := s.samples.drop k } := by
  have htake : (List.range k).map s.placedAt = s.samples.take k := by
    refine List.ext_getElem (by simp [hk]) fun i hi _ => ?_
    have hlt : i < s.samples.length := lt_of_lt_of_le (by simpa using hi) hk
    simp [State.placedAt, hlt]
  have hrun := run_of_runOn s.placedAt k (s.samples.drop k) (runOn_eq_stateOn s.placedAt s k)
  rwa [htake, List.take_append_drop] at hrun

/-! No state is occupied for ever (R242) -/

section Occupied
variable {s : State} {τ : Nat → Nat} {x : Nat → Sample} {q : FsmState} {j n : Nat}

/-- What is occupied from step n on, but not at first, is entered by some step. -/
theorem exists_entry (h : ∀ k, n ≤ k → (stateOn x s k).state = q) (hs : s.state ≠ q) :
    ∃ j, (stateOn x s j).state ≠ q ∧ ∀ k, j < k → (stateOn x s k).state = q := by
  induction n with
  | zero => exact absurd (h 0 le_rfl) hs
  | succ n ih =>
    by_cases hn : (stateOn x s n).state = q
    · refine ih fun k hk => ?_
      obtain rfl | hlt := hk.eq_or_lt
      · exact hn
      · exact h k hlt
    · exact ⟨n, hn, h⟩

/-- A hold or wait entered by step j and never left polls in time for ever. -/
theorem heldSince_of_occupied (hfair : FairTime τ x) (hpolls : PollsWithinWrap τ x s) (htimed : timed q = true)
    (hentry : (stateOn x s j).state ≠ q) (hstays : ∀ k, j < k → (stateOn x s k).state = q) {k : Nat} (hk : j ≤ k) :
    (stateOn x s (k + 1)).HeldSince (τ j) (τ k) := by
  induction k, hk using Nat.le_induction with
  | base =>
    have hq := hstays (j + 1) (Nat.lt_succ_self j)
    exact .of_entered (s := (stateOn x s j).feed (x j)) (hfair.stamped j) (step_stateOn x s j)
      (hq.trans_ne hentry.symm) (hq ▸ htimed)
  | succ k hk ih =>
    have hq := hstays (k + 1) (by omega)
    have hnext := hstays (k + 2) (by omega)
    have hlate : τ k ≤ τ j + 20000 := ih.inTime.trans (Nat.add_le_add_left (duration_le _) _)
    have hwrap : τ (k + 1) < τ j + 2 ^ 32 :=
      hpolls j k q hk htimed (fun i hi _ => exists_runOn_iff.mpr (hstays i hi)) hlate
    exact (ih.feed (x (k + 1))).of_stays (hfair.monotone k) hwrap (hfair.stamped (k + 1)) (hq ▸ htimed)
      (step_stateOn x s (k + 1)) (hnext.trans hq.symm)

/-- Time passes every duration, so no hold or wait is occupied for ever. -/
theorem not_occupied_of_timed (hidle : s.state = .idle) (hfair : FairTime τ x) (hpolls : PollsWithinWrap τ x s)
    (htimed : timed q = true) : ¬ ∀ k, n ≤ k → (stateOn x s k).state = q := by
  intro hstays
  obtain ⟨j, hentry, hafter⟩ := exists_entry hstays (hidle ▸ (ne_idle_of_timed htimed).symm)
  obtain ⟨k, hjk, hk⟩ := hfair.progress j 20000
  have hlate : τ k ≤ τ j + duration (stateOn x s (k + 1)).state :=
    (heldSince_of_occupied hfair hpolls htimed hentry hafter hjk.le).inTime
  have hlimit := duration_le (stateOn x s (k + 1)).state
  omega

end Occupied

/-! The time an acquisition may still take (R241) -/

/-- The longest that an acquisition still takes from the start of a hold or wait, if each ends by a sample at most `d`
past its duration: two holds, and waits of 100 us; 0 where only VALIDATE is left. -/
def timeLeft (d : Nat) (q : FsmState) (n : Nat) : Nat :=
  match q with
  | .startLow => (20000 + d) + (30 + d) + 82 * (100 + d)
  | .startHigh => (30 + d) + 82 * (100 + d)
  | .idle | .hsLow | .hsHigh | .bitHigh | .bitLow | .validate => (phasesLeft q n - 1) * (100 + d)

/-- A hold or wait that ends at most `d` past its duration leaves the next one its time. -/
theorem State.Moves.timeLeft_le {s t : State} (hm : s.Moves t) (h : s.Inv) (hmoved : t.state ≠ s.state)
    (htimed : timed t.state = true) (d : Nat) :
    timeLeft d t.state t.bitcount.toNat + (duration s.state + d) ≤ timeLeft d s.state s.bitcount.toNat := by
  have hwait : ∀ {m n : Nat}, m + 1 ≤ n → m * (100 + d) + (100 + d) ≤ n * (100 + d) := fun hmn =>
    (Nat.succ_mul _ _).ge.trans (Nat.mul_le_mul_right _ hmn)
  cases hm with
  | stay => exact absurd rfl hmoved
  | endLowHold hs => simp only [hs, State.enter_state, timeLeft, duration]; omega
  | endHighHold hs => simp only [hs, State.enter_state, timeLeft, duration, phasesLeft]; omega
  | proceed hqr =>
    obtain ⟨hs, rfl⟩ | ⟨hs, rfl⟩ | ⟨hs, rfl⟩ | ⟨hs, rfl⟩ := waitMoves_cases hqr
    · simp only [hs, State.enter_state, timeLeft, duration, phasesLeft]; omega
    · exact absurd hs.symm hmoved
    · simp only [hs, State.enter_state, timeLeft, duration]
      exact hwait (by simp only [phasesLeft]; omega)
    · have hlt : s.bitcount.toNat < 40 := h.countReading (.inl hs)
      simp only [hs, State.enter_state, timeLeft, duration]
      exact hwait (by simp only [phasesLeft, State.enter_bitcount]; omega)
  | takeBit hs =>
    have hlt : s.bitcount.toNat < 40 := h.countReading (.inr hs)
    obtain ⟨ht, hlast⟩ | ⟨ht, hlast⟩ := s.takeBit_state
    · rw [ht] at htimed
      exact absurd htimed (by decide)
    · simp only [Config.N_BITS] at hlast
      simp only [hs, ht, s.takeBit_bitcount hlt, timeLeft, duration]
      exact hwait (by simp only [phasesLeft]; omega)
  | timeout => exact absurd htimed Bool.false_ne_true
  | publish => exact absurd htimed Bool.false_ne_true
  | mismatch => exact absurd htimed Bool.false_ne_true

/-- The time left includes the current hold or wait. -/
theorem State.Inv.duration_le_timeLeft {s : State} (h : s.Inv) (htimed : timed s.state = true) (d : Nat) :
    duration s.state + d ≤ timeLeft d s.state s.bitcount.toNat := by
  have hwait : ∀ {n : Nat}, 1 ≤ n → 100 + d ≤ n * (100 + d) := fun hn => Nat.le_mul_of_pos_left _ hn
  have hlt : s.state = .bitHigh ∨ s.state = .bitLow → s.bitcount.toNat < 40 := h.countReading
  cases hs : s.state with
  | idle | validate => simp [hs, timed] at htimed
  | startLow | startHigh => simp only [timeLeft, duration]; omega
  | hsLow | hsHigh => exact hwait (by simp [phasesLeft])
  | bitHigh | bitLow =>
    have hcount := hlt (by simp [hs])
    exact hwait (by simp only [phasesLeft]; omega)

/-- The current operation of `s`, polled at true time `now`, started early enough to leave the acquisition its time
up to `finish`. -/
def State.OnTime (d finish now : Nat) (s : State) : Prop :=
  ∃ start, s.HeldSince start now ∧ start + timeLeft d s.state s.bitcount.toNat ≤ finish

/-- Samples at most `d` apart keep an acquisition on time. -/
theorem State.OnTime.of_step {s t : State} {d finish now later : Nat} (h : s.OnTime d finish now) (hinv : s.Inv)
    (hle : now ≤ later) (hspaced : later ≤ now + d) (hwrap : d + 20000 < 2 ^ 32)
    (hlater : s.now = BitVec.ofNat 32 later) (hrst : s.sample.rst = false) (hs : timed s.state = true)
    (ht : timed t.state = true) (hstep : step s = .next t) : t.OnTime d finish later := by
  obtain ⟨start, hheld, hfinish⟩ := h
  have hdue : later ≤ start + (duration s.state + d) := by
    have := hheld.inTime
    omega
  by_cases hsame : t.state = s.state
  · have hlimit := duration_le s.state
    refine ⟨start, hheld.of_stays hle (by omega) hlater hs hstep hsame, ?_⟩
    rw [(step_of_stays hs hstep hsame).1]
    exact hfinish
  · have hentered : t.HeldSince later later := .of_entered hlater hstep hsame ht
    obtain ⟨u, hm, rfl⟩ := step_moves hrst (ne_idle_of_timed hs) hstep
    have hleft := hm.timeLeft_le hinv hsame ht d
    refine ⟨later, hentered, ?_⟩
    simp only [State.advance_state, State.advance_bitcount]
    omega

/-! Every acquisition ends (R242) -/

section Acquisition
variable {s : State} {x : Nat → Sample} (hidle : s.state = .idle) (hrst : ∀ k, (x k).rst = false)
  (hcmd : (x 0).cmd = 0b01)
include hidle hrst hcmd

/-- From the accepted ACQUIRE on, the invariants hold, whatever the block held before. -/
theorem stateOn_inv (k : Nat) : (stateOn x s (k + 1)).Inv := by
  induction k with
  | zero =>
    rw [stateOn_succ_of_acquire (n := 0) hidle (hrst 0) hcmd]
    exact (State.acceptAcquire_inv (s.feed (x 0))).advance
  | succ k ih => exact ((effect_leaves _ _).inv (ih.feed (x (k + 1)))).advance

/-- A run that is in IDLE again has finished the acquisition with an outcome, at the first such step. -/
theorem exists_finished_of_idle {k : Nat} (hk : (stateOn x s (k + 1)).state = .idle) :
    ∃ i ≤ k, (stateOn x s (i + 1)).state = .idle ∧ (stateOn x s (i + 1)).outcome ≠ .none ∧
      (stateOn x s (i + 1)).done = true := by
  induction k with
  | zero =>
    rw [stateOn_succ_of_acquire (n := 0) hidle (hrst 0) hcmd] at hk
    exact absurd hk (by simp [acquiring])
  | succ k ih =>
    by_cases hearlier : (stateOn x s (k + 1)).state = .idle
    · obtain ⟨i, hi, hfinished⟩ := ih hearlier
      exact ⟨i, by omega, hfinished⟩
    · have hinv := stateOn_inv hidle hrst hcmd (k + 1)
      exact ⟨k + 1, le_rfl, hk, step_finishes hinv (step_stateOn x s (k + 1)) (hrst (k + 1)) hearlier hk⟩

/-- Were no step to end the acquisition, the phases left would fall to a least number, and the state that has it would
be occupied for ever. -/
theorem exists_occupied_of_never_idle (hbusy : ∀ k, (stateOn x s (k + 1)).state ≠ .idle) :
    ∃ m, ∀ k, m ≤ k → (stateOn x s (k + 1)).state = (stateOn x s (m + 1)).state := by
  obtain ⟨m, hmin⟩ : ∃ m, ∀ k, (stateOn x s (m + 1)).phases ≤ (stateOn x s (k + 1)).phases :=
    ⟨_, fun k => Function.argmin_le (fun k => (stateOn x s (k + 1)).phases) k⟩
  suffices hsame : ∀ k, m ≤ k → (stateOn x s (k + 1)).state = (stateOn x s (m + 1)).state ∧
      (stateOn x s (k + 1)).phases = (stateOn x s (m + 1)).phases from ⟨m, fun k hk => (hsame k hk).1⟩
  intro k hk
  induction k, hk using Nat.le_induction with
  | base => exact ⟨rfl, rfl⟩
  | succ k hk ih =>
    obtain ⟨hstate, hphases⟩ := ih
    have hfeed : ((stateOn x s (k + 1)).feed (x (k + 1))).Inv := (stateOn_inv hidle hrst hcmd k).feed _
    obtain ⟨hq, hn⟩ | hlt := step_stays_or_phases_lt hfeed (hrst (k + 1)) (hbusy k) (step_stateOn x s (k + 1))
    · exact ⟨hq.trans hstate, hn.trans hphases⟩
    · exact absurd (hmin (k + 1)) (Nat.not_le.mpr (hphases ▸ hlt))

/-- Up to its end an acquisition is on time. -/
theorem stateOn_onTime {τ : Nat → Nat} {d n : Nat} (hmono : ∀ k, τ k ≤ τ (k + 1)) (hspaced : spacedBy d τ)
    (hwrap : d + 20000 < 2 ^ 32)
    (hstamped : ∀ k ≤ n, (x k).usNow = BitVec.ofNat 32 (τ k))
    (htimed : ∀ k ≤ n, timed (stateOn x s (k + 1)).state = true) :
    (stateOn x s (n + 1)).OnTime d (τ 0 + 28230 + 84 * d) (τ n) := by
  induction n with
  | zero =>
    have hstart := stateOn_succ_of_acquire (n := 0) hidle (hrst 0) hcmd
    refine ⟨τ 0, ⟨?_, le_rfl, by omega⟩, ?_⟩
    · rw [hstart]
      exact hstamped 0 le_rfl
    · rw [hstart]
      simp only [acquiring, timeLeft]
      omega
  | succ n ih =>
    have hontime := ih (fun k hk => hstamped k (by omega)) (fun k hk => htimed k (by omega))
    have hfeed : ((stateOn x s (n + 1)).feed (x (n + 1))).OnTime d (τ 0 + 28230 + 84 * d) (τ n) := by
      obtain ⟨start, hheld, hfinish⟩ := hontime
      exact ⟨start, hheld.feed _, hfinish⟩
    exact hfeed.of_step ((stateOn_inv hidle hrst hcmd n).feed _) (hmono n) (hspaced n) hwrap
      (hstamped (n + 1) le_rfl) (hrst (n + 1)) (htimed n (by omega)) (htimed (n + 1) le_rfl)
      (step_stateOn x s (n + 1))

end Acquisition

/-! The statements -/

/-- Settles O1: the step is RST, which writes the reset values, and the ports are copies of registers. -/
theorem resetStepLoadsResetValues : Obligations.ResetStepLoadsResetValues := by
  intro s hrst
  obtain ⟨-, -, hports⟩ := resetMeetsInvariant
  exact ⟨_, step_of_rst hrst, rfl, rfl, rfl, rfl, rfl, rfl, rfl, rfl, rfl, rfl, rfl, rfl, hports⟩

/-- Settles O2: RST's row is the reset record beside the environment's two fields. -/
theorem rstWritesEveryRegister : Obligations.RstWritesEveryRegister := fun _ => rfl

/-- Settles O49: time passes every hold and wait, VALIDATE lasts one step, and IDLE is left by an ACQUIRE. -/
theorem noStateIsOccupiedForEver : Obligations.NoStateIsOccupiedForEver := by
  intro s τ x hidle hfair hpolls _ n q hoccupied
  have hstays : ∀ k, n ≤ k → (stateOn x s k).state = q := fun k hk => exists_runOn_iff.mp (hoccupied k hk)
  have hq : q = .idle := by
    by_cases htimed : timed q = true
    · exact absurd hstays (not_occupied_of_timed hidle hfair hpolls htimed)
    · cases q with
      | idle => rfl
      | validate =>
        have hnext := step_state_of_validate (s := (stateOn x s n).feed (x n)) (hstays n le_rfl) (step_stateOn x s n)
        exact hnext.symm.trans (hstays (n + 1) (Nat.le_succ n)) |>.symm
      | _ => exact absurd rfl htimed
  subst hq
  refine ⟨rfl, fun k hk => ?_⟩
  by_contra! hacquire
  obtain ⟨hrst, hcmd⟩ := hacquire
  have hnext := stateOn_succ_of_acquire (hstays k hk) (Bool.eq_false_iff.mpr hrst) hcmd
  have hidle := hstays (k + 1) (by omega)
  rw [hnext] at hidle
  exact absurd hidle (by simp [acquiring])

/-- Settles O48: were the acquisition never to end, one of its states would be occupied for ever, against O49. -/
theorem acquisitionEndsUnderFairTime : Obligations.AcquisitionEndsUnderFairTime := by
  intro s τ x hidle hcmd hrst hfair hpolls hduty
  have hends : ∃ k, (stateOn x s (k + 1)).state = .idle := by
    by_contra! hbusy
    obtain ⟨m, hoccupied⟩ := exists_occupied_of_never_idle hidle hrst hcmd hbusy
    refine hbusy m (noStateIsOccupiedForEver s τ x hidle hfair hpolls hduty (m + 1) _ fun k hk => ?_).1
    obtain ⟨i, rfl⟩ := Nat.exists_eq_add_of_le' (show 1 ≤ k by omega)
    exact ⟨_, runOn_eq_stateOn x s (i + 1), hoccupied i (by omega)⟩
  obtain ⟨k, hk⟩ := hends
  obtain ⟨i, -, hfinished⟩ := exists_finished_of_idle hidle hrst hcmd hk
  exact ⟨i + 1, _, Nat.le_add_left 1 i, runOn_eq_stateOn x s (i + 1), hfinished⟩

/-- Settles O36: an acquisition that is still in a hold or wait after sample n is on time, and sample n is past its
time. -/
theorem acquisitionEndsWithinBound : Obligations.AcquisitionEndsWithinBound := by
  intro s τ d n hidle hcmd hsched hspaced hwrap hquiet hlen hlate _
  have hrst := s.placedAt_rst hquiet
  have hfirst : (s.placedAt 0).cmd = 0b01 := by rwa [s.placedAt_zero (by omega)]
  have hstamped : ∀ k ≤ n, (s.placedAt k).usNow = BitVec.ofNat 32 (τ k) := fun k hk =>
    hsched.stamped k _ (s.getElem?_eq_placedAt (by omega))
  have hends : ∃ k ≤ n + 1, (stateOn s.placedAt s (k + 1)).state = .idle := by
    by_contra! hbusy
    have htimed : ∀ k ≤ n, timed (stateOn s.placedAt s (k + 1)).state = true := fun k hk =>
      timed_of_busy (s := (stateOn s.placedAt s (k + 1)).feed _) (step_stateOn _ s (k + 1)) (hbusy k (by omega))
        (hbusy (k + 1) (by omega))
    obtain ⟨start, hheld, hfinish⟩ := stateOn_onTime hidle hrst hfirst hsched.monotone hspaced hwrap hstamped htimed
    have hleft := (stateOn_inv hidle hrst hfirst n).duration_le_timeLeft (htimed n le_rfl) d
    have hintime := hheld.inTime
    -- What is left is `d = 0`, and then time stands still and sample n is not late.
    have hd : d = 0 := by omega
    have hstill : τ n ≤ τ 0 := antitone_nat_of_succ_le (fun k => by simpa [hd] using hspaced k) (Nat.zero_le n)
    omega
  obtain ⟨k, hk, hend⟩ := hends
  obtain ⟨i, hi, hfinished⟩ := exists_finished_of_idle hidle hrst hfirst hend
  exact ⟨i + 1, _, by omega, by omega, run_eq_stateOn (by omega), hfinished⟩

end Sys2Proof.Machine
